-- ==== Sys2Proof/Word.lean ====
section
/-! DEFINITION. The words of SSRT-LZWD: the byte (one index, one buffer cell; 00_scope.md R6, INDEXW) and the
zero-extended code value (30_encoding.md R92). -/

namespace Sys2Proof

/-- One byte: a cell of IBUF, OBUF or DBUF, one index of the decoded stream (00_scope.md R6, R14). -/
abbrev Byte := BitVec 8

/-- A code value zero-extended to MAXBITS = 12 bits (30_encoding.md R92). -/
abbrev Code := BitVec 12

end Sys2Proof
end

