-- ==== Sys2Proof/Config.lean ====
section
/-! DEFINITION. What is fixed for the block: the parameters of 00_scope.md R6, the open parameters of R7, and the
free values that stand for what 10_state.md R45 calls unspecified or unwritten. -/

namespace Sys2Proof

/-- MAXBITS, the largest code width (00_scope.md R6). -/
def Config.maxBits : Nat := 12

/-- TABSIZE, the number of code values (00_scope.md R6). -/
def Config.tabSize : Nat := 4096

/-- MINCS_MIN and MINCS_MAX, the legal range of the minimum code size (00_scope.md R6, 10_state.md R27). -/
def Config.mincsMin : Nat := 2
/-- See `Config.mincsMin`. -/
def Config.mincsMax : Nat := 8

/-- The buffers the host can reach (20_memory.md R60). -/
inductive Space where
  | ibuf | obuf | dbuf
deriving DecidableEq, Repr

/-- The registers that reset leaves unspecified (10_state.md R48). -/
inductive RegName where
  | mincs | expect | ilen | width | height | ocnt | dlen
  | bitpos | codesize | next | prev | clearcode | endcode
deriving DecidableEq, Repr

/-- The open parameters IBUF_CAP, OBUF_CAP, DBUF_CAP, each 0 to 2^32 - 1 (00_scope.md R7). -/
structure Params where
  ibufCap : BitVec 32
  obufCap : BitVec 32
  dbufCap : BitVec 32
deriving DecidableEq, Repr

/-- FREE VALUE: the byte an unwritten cell of a buffer reads as, by the space, the number of times the space became
unwritten, and the cell (10_state.md R45: any byte; 20_memory.md R66: reads repeat). Log entry 6. -/
opaque Config.unwrittenByte : Space → Nat → Nat → Byte

/-- FREE VALUE: what an unspecified register holds, by the register and the number of resets (10_state.md R45). Cut to
the register's width where it is read. Log entries 4, 5. -/
opaque Config.unspecifiedReg : RegName → Nat → BitVec 35

/-- FREE VALUE: what the n-th of the host reads returns that the busy handshake leaves unspecified: while BUSY = 1, other
than of STATUS (43_host_commands.md R181), and of a result before BUSY = 0 has been read (70_reset_and_hazards.md R241
H-b). Cut to the width of what is read where it is drawn. Log entries 8, 32. -/
opaque Config.unsyncedRead : Nat → BitVec 35

end Sys2Proof
end

