-- ==== Sys2Proof/Syntax.lean ====
section
/-! DEFINITION. The instructions of spec/opcode_table.json (one constructor a row), what a decoder of code words reads
besides the bits (30_encoding.md R91, R93), and the moves of the host (43_host_commands.md R180). -/

namespace Sys2Proof

/-- One constructor per row of spec/opcode_table.json: the six code classes (30_encoding.md R93), their 21 exact rows for
one legal MINCS each (30_encoding.md R95), the three commands (30_encoding.md R97). -/
inductive Instr where
  /-- LIT: a literal, the operand is the index to emit (41_lzw_codes.md R134). -/
  | lit (k : Code)
  /-- CLR: the clear code (41_lzw_codes.md R138). -/
  | clr
  /-- END: the end code, end of information (41_lzw_codes.md R137). -/
  | eoi
  /-- REF: a reference to a learned entry (41_lzw_codes.md R135). -/
  | ref (c : Code)
  /-- KWK: the self-reference code, equal to NEXT (41_lzw_codes.md R136). -/
  | kwk (c : Code)
  /-- INV: a code beyond NEXT (41_lzw_codes.md R139). -/
  | inv (c : Code)
  /-- LIT_M2, CLR_M2, END_M2: the rows of LIT, CLR and END for MINCS = 2. -/
  | litM2 (k : BitVec 2)
  | clrM2
  | eoiM2
  /-- LIT_M3, CLR_M3, END_M3: the rows of LIT, CLR and END for MINCS = 3. -/
  | litM3 (k : BitVec 3)
  | clrM3
  | eoiM3
  /-- LIT_M4, CLR_M4, END_M4: the rows of LIT, CLR and END for MINCS = 4. -/
  | litM4 (k : BitVec 4)
  | clrM4
  | eoiM4
  /-- LIT_M5, CLR_M5, END_M5: the rows of LIT, CLR and END for MINCS = 5. -/
  | litM5 (k : BitVec 5)
  | clrM5
  | eoiM5
  /-- LIT_M6, CLR_M6, END_M6: the rows of LIT, CLR and END for MINCS = 6. -/
  | litM6 (k : BitVec 6)
  | clrM6
  | eoiM6
  /-- LIT_M7, CLR_M7, END_M7: the rows of LIT, CLR and END for MINCS = 7. -/
  | litM7 (k : BitVec 7)
  | clrM7
  | eoiM7
  /-- LIT_M8, CLR_M8, END_M8: the rows of LIT, CLR and END for MINCS = 8. -/
  | litM8 (k : BitVec 8)
  | clrM8
  | eoiM8
  /-- DECODE: CTRL value 1 (43_host_commands.md R184). -/
  | decode
  /-- DEINT: CTRL value 2 (43_host_commands.md R185). -/
  | deint
  /-- CLEAR: CTRL value 4 (43_host_commands.md R186). -/
  | clear
deriving DecidableEq, Repr

/-- The registers that decide how long the next code is and which class it has (30_encoding.md R91, R93). -/
structure CodeContext where
  mincs     : BitVec 8
  codesize  : BitVec 4
  next      : BitVec 13
  clearcode : BitVec 9
  endcode   : BitVec 9
deriving DecidableEq, Repr

/-- What the host can do to the block (43_host_commands.md R180). A write of register 0 is a command; a written value may
be of any size and is cut to the register's width (R188). -/
inductive HostAction where
  | readReg (n : Nat)
  | writeReg (n : Nat) (v : Nat)
  | readBuf (sp : Space) (a : Nat)
  | writeBuf (sp : Space) (a : Nat) (v : Nat)
  | reset
deriving DecidableEq, Repr

/-- One move of the host between the engine's steps: act, let the engine make one step, or read STATUS over and over
until BUSY = 0 (43_host_commands.md R189, "poll STATUS until BUSY = 0"). Log entries 1, 27. -/
inductive HostMove where
  | act (a : HostAction)
  | pass
  | poll
deriving DecidableEq, Repr

end Sys2Proof
end

