-- ==== Sys2Proof/WellFormed.lean ====
section
/-! DEFINITION. Which instructions are well formed: by themselves (the bounds of 30_encoding.md R92 and R95 that the
operand types do not say), and in a decoder's state (the class conditions of 30_encoding.md R93). -/

namespace Sys2Proof

/-- The bounds that hold for every legal MINCS: a literal is below 256 (30_encoding.md R92), the first learned code is at
least 6, so a code above NEXT is at least 7 (30_encoding.md R95). -/
def Instr.wf : Instr → Bool
  | .lit k => decide (k.toNat < 256)
  | .clr => true
  | .eoi => true
  | .ref c => decide (6 ≤ c.toNat)
  | .kwk c => decide (6 ≤ c.toNat)
  | .inv c => decide (7 ≤ c.toNat)
  | .litM2 _ => true
  | .clrM2 => true
  | .eoiM2 => true
  | .litM3 _ => true
  | .clrM3 => true
  | .eoiM3 => true
  | .litM4 _ => true
  | .clrM4 => true
  | .eoiM4 => true
  | .litM5 _ => true
  | .clrM5 => true
  | .eoiM5 => true
  | .litM6 _ => true
  | .clrM6 => true
  | .eoiM6 => true
  | .litM7 _ => true
  | .clrM7 => true
  | .eoiM7 => true
  | .litM8 _ => true
  | .clrM8 => true
  | .eoiM8 => true
  | .decode => true
  | .deint => true
  | .clear => true

/-- ENDCODE = CLEARCODE + 1 and CLEARCODE + 2 ≤ NEXT, which makes the six classes disjoint (30_encoding.md R94). -/
def CodeContext.ordered (x : CodeContext) : Bool :=
  x.endcode.toNat == x.clearcode.toNat + 1 && decide (x.clearcode.toNat + 2 ≤ x.next.toNat)

/-- The MINCS whose exact rows apply (30_encoding.md R95): MINCS legal, CLEARCODE = 1 << MINCS and
ENDCODE = CLEARCODE + 1, as DECODE leaves them (41_lzw_codes.md R125); 0 where no exact row applies. Log entry 11. -/
def CodeContext.exactRow (x : CodeContext) : Nat :=
  if 2 ≤ x.mincs.toNat ∧ x.mincs.toNat ≤ 8 ∧ x.clearcode.toNat = 2 ^ x.mincs.toNat
      ∧ x.endcode.toNat = x.clearcode.toNat + 1
  then x.mincs.toNat else 0

/-- A value that CODESIZE bits hold, CODESIZE at most 12 (30_encoding.md R90). -/
def CodeContext.holds (x : CodeContext) (c : Code) : Bool :=
  decide (x.codesize.toNat ≤ 12) && decide (c.toNat < 2 ^ x.codesize.toNat)

/-- The class condition of an instruction's row (30_encoding.md R93 and the `condition` of spec/opcode_table.json); a row
for one MINCS takes precedence over its class row, and a command is no code. -/
def Instr.inClass (x : CodeContext) : Instr → Bool
  | .lit k => x.exactRow == 0 && decide (k.toNat < x.clearcode.toNat)
  | .clr => x.exactRow == 0
  | .eoi => x.exactRow == 0
  | .ref c => decide (x.clearcode.toNat + 2 ≤ c.toNat) && decide (c.toNat < x.next.toNat)
  | .kwk c => c.toNat == x.next.toNat
  | .inv c => decide (x.next.toNat < c.toNat)
  | .litM2 _ => x.exactRow == 2
  | .clrM2 => x.exactRow == 2
  | .eoiM2 => x.exactRow == 2
  | .litM3 _ => x.exactRow == 3
  | .clrM3 => x.exactRow == 3
  | .eoiM3 => x.exactRow == 3
  | .litM4 _ => x.exactRow == 4
  | .clrM4 => x.exactRow == 4
  | .eoiM4 => x.exactRow == 4
  | .litM5 _ => x.exactRow == 5
  | .clrM5 => x.exactRow == 5
  | .eoiM5 => x.exactRow == 5
  | .litM6 _ => x.exactRow == 6
  | .clrM6 => x.exactRow == 6
  | .eoiM6 => x.exactRow == 6
  | .litM7 _ => x.exactRow == 7
  | .clrM7 => x.exactRow == 7
  | .eoiM7 => x.exactRow == 7
  | .litM8 _ => x.exactRow == 8
  | .clrM8 => x.exactRow == 8
  | .eoiM8 => x.exactRow == 8
  | .decode => false
  | .deint => false
  | .clear => false

end Sys2Proof
end

