-- ==== Sys2Proof/Decode.lean ====
section
/-! DEFINITION. From bits to instructions and back: the fetch of a code word (20_memory.md R61, R62; 40_bit_cursor.md
R114), its class (30_encoding.md R93), the command values (30_encoding.md R97), and the encoder of both. -/

namespace Sys2Proof

/-- Payload bit n is bit n mod 8 of P[n div 8] (20_memory.md R61). -/
def payloadBit (p : List Byte) (n : Nat) : Bool :=
  (p.getD (n / 8) 0).getLsbD (n % 8)

/-- The value of the w payload bits from bit b on, the first bit read being bit 0 (20_memory.md R62). -/
def fetchValue (p : List Byte) (b : Nat) : Nat → Nat
  | 0 => 0
  | w + 1 => (payloadBit p b).toNat + 2 * fetchValue p (b + 1) w

/-- Why bits are no instruction. -/
inductive DecodeError where
  /-- Fewer than CODESIZE payload bits are left: the bits that remain are no code (40_bit_cursor.md R116). -/
  | outOfBits
  /-- A CTRL value other than 1, 2 and 4 (43_host_commands.md R187). -/
  | reservedCommand
deriving DecidableEq, Repr

/-- What the decoder answers. -/
inductive Decoded where
  | ok (i : Instr)
  | rejected (e : DecodeError)
deriving DecidableEq, Repr

/-- The literal c, as the row of the MINCS that applies. -/
def decodeLit (x : CodeContext) (c : Code) : Instr :=
  match x.exactRow with
  | 2 => .litM2 (c.setWidth 2)
  | 3 => .litM3 (c.setWidth 3)
  | 4 => .litM4 (c.setWidth 4)
  | 5 => .litM5 (c.setWidth 5)
  | 6 => .litM6 (c.setWidth 6)
  | 7 => .litM7 (c.setWidth 7)
  | 8 => .litM8 (c.setWidth 8)
  | _ => .lit c

/-- The clear code, as the row of the MINCS that applies. -/
def decodeClr (x : CodeContext) : Instr :=
  match x.exactRow with
  | 2 => .clrM2
  | 3 => .clrM3
  | 4 => .clrM4
  | 5 => .clrM5
  | 6 => .clrM6
  | 7 => .clrM7
  | 8 => .clrM8
  | _ => .clr

/-- The end code, as the row of the MINCS that applies. -/
def decodeEoi (x : CodeContext) : Instr :=
  match x.exactRow with
  | 2 => .eoiM2
  | 3 => .eoiM3
  | 4 => .eoiM4
  | 5 => .eoiM5
  | 6 => .eoiM6
  | 7 => .eoiM7
  | 8 => .eoiM8
  | _ => .eoi

/-- The instruction a fetched value is, total (30_encoding.md R93; the order of the tests is 41_lzw_codes.md R126). -/
def decodeCode (x : CodeContext) (c : Code) : Instr :=
  if c.toNat < x.clearcode.toNat then decodeLit x c
  else if c.toNat = x.clearcode.toNat then decodeClr x
  else if c.toNat = x.endcode.toNat then decodeEoi x
  else if c.toNat < x.next.toNat then .ref c
  else if c.toNat = x.next.toNat then .kwk c
  else .inv c

/-- The instruction at bit b of the payload p: rejected where fewer than CODESIZE bits are left (40_bit_cursor.md R116),
else the class of the fetched value (40_bit_cursor.md R114). -/
def decodeAt (x : CodeContext) (p : List Byte) (b : Nat) : Decoded :=
  if 8 * p.length < b + x.codesize.toNat then .rejected .outOfBits
  else .ok (decodeCode x (BitVec.ofNat 12 (fetchValue p b x.codesize.toNat)))

/-- The command a CTRL value is (30_encoding.md R97). -/
def decodeCtrl (v : BitVec 32) : Decoded :=
  if v = 0x00000001#32 then .ok .decode
  else if v = 0x00000002#32 then .ok .deint
  else if v = 0x00000004#32 then .ok .clear
  else .rejected .reservedCommand

/-! ## The encoder -/

/-- The code value of an instruction in a decoder's state (30_encoding.md R93, R95); none for a command. -/
def encodeCode (x : CodeContext) : Instr → Option Code
  | .lit k => some k
  | .clr => some (x.clearcode.setWidth 12)
  | .eoi => some (x.endcode.setWidth 12)
  | .ref c => some c
  | .kwk c => some c
  | .inv c => some c
  | .litM2 k => some (k.setWidth 12)
  | .clrM2 => some 4
  | .eoiM2 => some 5
  | .litM3 k => some (k.setWidth 12)
  | .clrM3 => some 8
  | .eoiM3 => some 9
  | .litM4 k => some (k.setWidth 12)
  | .clrM4 => some 16
  | .eoiM4 => some 17
  | .litM5 k => some (k.setWidth 12)
  | .clrM5 => some 32
  | .eoiM5 => some 33
  | .litM6 k => some (k.setWidth 12)
  | .clrM6 => some 64
  | .eoiM6 => some 65
  | .litM7 k => some (k.setWidth 12)
  | .clrM7 => some 128
  | .eoiM7 => some 129
  | .litM8 k => some (k.setWidth 12)
  | .clrM8 => some 256
  | .eoiM8 => some 257
  | .decode => none
  | .deint => none
  | .clear => none

/-- The CTRL value of a command (30_encoding.md R97); none for a code. -/
def encodeCtrl : Instr → Option (BitVec 32)
  | .lit _ => none
  | .clr => none
  | .eoi => none
  | .ref _ => none
  | .kwk _ => none
  | .inv _ => none
  | .litM2 _ => none
  | .clrM2 => none
  | .eoiM2 => none
  | .litM3 _ => none
  | .clrM3 => none
  | .eoiM3 => none
  | .litM4 _ => none
  | .clrM4 => none
  | .eoiM4 => none
  | .litM5 _ => none
  | .clrM5 => none
  | .eoiM5 => none
  | .litM6 _ => none
  | .clrM6 => none
  | .eoiM6 => none
  | .litM7 _ => none
  | .clrM7 => none
  | .eoiM7 => none
  | .litM8 _ => none
  | .clrM8 => none
  | .eoiM8 => none
  | .decode => some 0x00000001#32
  | .deint => some 0x00000002#32
  | .clear => some 0x00000004#32

/-- The w bits of a value, least significant first (30_encoding.md R90, R99). -/
def codeBits (w v : Nat) : List Bool :=
  (List.range w).map v.testBit

/-- The value of bits given least significant first. -/
def bitsValue : List Bool → Nat
  | [] => 0
  | b :: bs => b.toNat + 2 * bitsValue bs

/-- Bits packed to bytes: byte j is bits 8j+7 .. 8j, the last byte padded with 0 bits (30_encoding.md R99). -/
def packBits (bits : List Bool) : List Byte :=
  (List.range ((bits.length + 7) / 8)).map fun j => BitVec.ofNat 8 (bitsValue ((bits.drop (8 * j)).take 8))

/-- An instruction's words: the bits of a code, least significant first, or the 32-bit value of a command. -/
inductive Encoded where
  | code (bits : List Bool)
  | ctrl (v : BitVec 32)
deriving DecidableEq, Repr

/-- The words of an instruction in a decoder's state (30_encoding.md R90, R97). -/
def encode (x : CodeContext) (i : Instr) : Encoded :=
  match encodeCode x i with
  | some c => .code (codeBits x.codesize.toNat c.toNat)
  | none => .ctrl ((encodeCtrl i).getD 0)

/-! ## The words of the opcode table -/

/-- The least MINCS with which a 12-bit value is a literal, the clear code or the end code; 8 if there is none
(30_encoding.md R95). -/
def tableMincs (v : Nat) : Nat :=
  if v ≤ 5 then 2 else if v ≤ 9 then 3 else if v ≤ 17 then 4 else if v ≤ 33 then 5
  else if v ≤ 65 then 6 else if v ≤ 129 then 7 else 8

/-- The width at which a table word is read: the first width of its MINCS, more only for a value that needs it. -/
def tableWidth (v : Nat) : Nat :=
  if v < 512 then tableMincs v + 1 else if v < 1024 then 10 else if v < 2048 then 11 else 12

/-- NEXT while a table word is read: the first learned code, or the least NEXT at which its width is read
(10_state.md R39). -/
def tableNext (v : Nat) : Nat :=
  if v < 512 then 2 ^ tableMincs v + 2 else 2 ^ (tableWidth v - 1)

/-- A decoder's state in which a table word can be read: as DECODE leaves it for the least MINCS that gives the value a
fixed meaning. Log entry 19. -/
def tableContext (v : Nat) : CodeContext where
  mincs := BitVec.ofNat 8 (tableMincs v)
  codesize := BitVec.ofNat 4 (tableWidth v)
  next := BitVec.ofNat 13 (tableNext v)
  clearcode := BitVec.ofNat 9 (2 ^ tableMincs v)
  endcode := BitVec.ofNat 9 (2 ^ tableMincs v + 1)

/-- A word's two payload bytes, low byte first: payload bit n is bit n of the word (20_memory.md R61). -/
def tableBytes (v : Nat) : List Byte :=
  [BitVec.ofNat 8 v, BitVec.ofNat 8 (v / 256)]

/-- The 12-bit value of a table word. -/
def tableValue (nbits w : Nat) : Nat := w % 2 ^ min nbits 12

/-- The instruction of a table word: up to 16 bits it is a code, laid out as payload bytes and read in `tableContext`;
above that it is a value written to CTRL. -/
def decodeTableWord (nbits w : Nat) : Option Instr :=
  let answer :=
    if nbits ≤ 16 then decodeAt (tableContext (tableValue nbits w)) (tableBytes (tableValue nbits w)) 0
    else decodeCtrl (BitVec.ofNat 32 (w % 2 ^ nbits))
  match answer with
  | .ok i => some i
  | .rejected _ => none

end Sys2Proof
end

