-- ==== Sys2Proof/Machine/State.lean ====
section
/-! DEFINITION. The state of the block: every register and memory of 10_state.md R20 and R21, the parameters of
00_scope.md R7, and the model's own fields (the host's coming moves, its last read, the indexes of the free values). -/

namespace Sys2Proof.Machine

/-- A byte buffer: written cells only, addresses strictly rising; a cell not listed is unwritten (10_state.md R45). -/
abbrev Memory := List Host.Cell

/-- One entry of the code table: PREFIX is NONE or a code, SUFFIX a byte (10_state.md R40). -/
structure TabEntry where
  prefixCode : Option Code
  suffix     : Byte
deriving DecidableEq, Repr

/-- The code table TAB: written entries only, code values strictly rising (10_state.md R40). -/
abbrev Table := List (Nat × TabEntry)

/-- The state of one block. -/
structure State where
  /-- STATUS, no. 1 (10_state.md R23). -/
  status    : BitVec 32
  /-- CONFIG, no. 2 (10_state.md R25). -/
  config    : BitVec 32
  /-- MINCS, no. 3 (10_state.md R26). -/
  mincs     : BitVec 8
  /-- EXPECT, no. 4 (10_state.md R28). -/
  expect    : BitVec 32
  /-- ILEN, no. 5 (10_state.md R29). -/
  ilen      : BitVec 32
  /-- WIDTH, no. 6 (10_state.md R30). -/
  width     : BitVec 16
  /-- HEIGHT, no. 7 (10_state.md R30). -/
  height    : BitVec 16
  /-- OCNT, no. 8 (10_state.md R31). -/
  ocnt      : BitVec 32
  /-- DLEN, no. 9 (10_state.md R32). -/
  dlen      : BitVec 32
  /-- BITPOS, no. 10, the bit cursor (10_state.md R33). -/
  bitpos    : BitVec 35
  /-- CODESIZE, no. 11 (10_state.md R34). -/
  codesize  : BitVec 4
  /-- NEXT, no. 12 (10_state.md R35). -/
  next      : BitVec 13
  /-- PREV, no. 13: bit 12 V, bits 11:0 CODE (10_state.md R36). -/
  prev      : BitVec 13
  /-- CLEARCODE, no. 14 (10_state.md R37). -/
  clearcode : BitVec 9
  /-- ENDCODE, no. 15 (10_state.md R37). -/
  endcode   : BitVec 9
  /-- ECODE, no. 16 (10_state.md R38). -/
  ecode     : BitVec 12
  /-- EPOS, no. 17 (10_state.md R38). -/
  epos      : BitVec 35
  /-- IBUF (10_state.md R42). -/
  ibuf      : Memory
  /-- OBUF (10_state.md R43). -/
  obuf      : Memory
  /-- DBUF (10_state.md R44). -/
  dbuf      : Memory
  /-- TAB (10_state.md R40). -/
  tab       : Table
  /-- The registers that are unspecified because nothing has written them since reset (10_state.md R45, R48). -/
  unspec    : List RegName
  /-- IBUF_CAP, OBUF_CAP, DBUF_CAP (00_scope.md R7): no step changes them. Log entry 3. -/
  params    : Params
  /-- The MODEL's own: the host's coming moves. Log entry 1. -/
  script    : List HostMove
  /-- The MODEL's own: what the host's last read returned. Log entry 2. -/
  lastRead  : Option (BitVec 35)
  /-- The host has read STATUS with BUSY = 0 since the last accepted DECODE or DEINT, or none was accepted since reset: the
  handshake of 20_memory.md R71 (b), on which 70_reset_and_hazards.md R241 H-b rests. Log entry 32. -/
  synced    : Bool
  /-- The MODEL's own: resets so far, an index of free values. Log entry 7. -/
  epoch     : Nat
  /-- The MODEL's own: how often DBUF became unwritten, an index of free values. Log entry 7. -/
  dbufEpoch : Nat
  /-- The MODEL's own: values drawn by host reads that the busy handshake leaves unspecified. Log entry 7. -/
  draws     : Nat
deriving DecidableEq, Repr

/-- Reasons the machine stops with a fault. -/
inductive Fault where
  /-- Raised by REF and KWK when the prefix chain of the code to emit does not lead to a literal: no reachable state,
  since 41_lzw_codes.md R131 excludes it (Safety's invariant). Safe: the model stops where the spec says nothing. Log 14. -/
  | noString
deriving DecidableEq, Repr

/-- Reasons an action has no meaning. -/
inductive Refusal where
  /-- An instruction without a meaning in the model, by its mnemonic. Raised only by exec's own arms. Safe. -/
  | notModelled (mnemonic : String)
  /-- Raised by DECODE and DEINT when an operand exceeds a capacity (43_host_commands.md R183: refused). Safe. Log 12. -/
  | commandBeyondCapacity
  /-- Raised by a host buffer access at or above the space's capacity (43_host_commands.md R188). Safe. Log 13. -/
  | bufferBeyondCapacity
deriving DecidableEq, Repr

/-- The registers that reset leaves unspecified (10_state.md R48). -/
def unspecifiedAtReset : List RegName :=
  [.mincs, .expect, .ilen, .width, .height, .ocnt, .dlen,
   .bitpos, .codesize, .next, .prev, .clearcode, .endcode]

/-- The state after hardware reset (10_state.md R48, 70_reset_and_hazards.md R230): STATUS, CONFIG, ECODE, EPOS are 0, every
other register is unspecified (held as 0 and never read as 0: log entry 4), every cell and entry is unwritten. -/
def State.reset : State where
  status := 0
  config := 0
  mincs := 0
  expect := 0
  ilen := 0
  width := 0
  height := 0
  ocnt := 0
  dlen := 0
  bitpos := 0
  codesize := 0
  next := 0
  prev := 0
  clearcode := 0
  endcode := 0
  ecode := 0
  epos := 0
  ibuf := []
  obuf := []
  dbuf := []
  tab := []
  unspec := unspecifiedAtReset
  params := ⟨0xFFFFFFFF#32, 0xFFFFFFFF#32, 0xFFFFFFFF#32⟩
  script := []
  lastRead := none
  synced := true
  epoch := 0
  dbufEpoch := 0
  draws := 0

end Sys2Proof.Machine
end

