-- ==== Sys2Proof/Machine/Memory.lean ====
section
/-! DEFINITION. Sparse memories: lists of (address, value) pairs with strictly rising addresses. A place that is not
listed is unwritten (10_state.md R45), so no entry can equal what an unlisted place reads as. -/

namespace Sys2Proof.Machine

/-- What is written at a, none where nothing is. -/
def Store.read {α : Type} (a : Nat) : List (Nat × α) → Option α
  | [] => none
  | (b, v) :: m => if a = b then some v else Store.read a m

/-- Write v at a, keeping the addresses rising. -/
def Store.write {α : Type} (a : Nat) (v : α) : List (Nat × α) → List (Nat × α)
  | [] => [(a, v)]
  | (b, u) :: m =>
    if a < b then (a, v) :: (b, u) :: m
    else if a = b then (a, v) :: m
    else (b, u) :: Store.write a v m

/-- The canonical form: addresses strictly rising, each at least `lo`. -/
def Store.risingFrom {α : Type} : Nat → List (Nat × α) → Bool
  | _, [] => true
  | lo, (a, _) :: m => decide (lo ≤ a) && Store.risingFrom (a + 1) m

/-- The canonical form of a byte buffer. -/
def Memory.wf (m : Memory) : Bool := Store.risingFrom 0 m

/-- The canonical form of the code table. -/
def Table.wf (t : Table) : Bool := Store.risingFrom 0 t

/-- Every listed address is below the capacity. -/
def Memory.within (cap : Nat) (m : Memory) : Bool := m.all fun c => decide (c.1 < cap)

/-- The written cells of a buffer (20_memory.md R60). -/
def State.buf (s : State) : Space → Memory
  | .ibuf => s.ibuf
  | .obuf => s.obuf
  | .dbuf => s.dbuf

/-- The capacity of a buffer (00_scope.md R7). -/
def State.capacity (s : State) : Space → Nat
  | .ibuf => s.params.ibufCap.toNat
  | .obuf => s.params.obufCap.toNat
  | .dbuf => s.params.dbufCap.toNat

/-- How often a buffer became unwritten: at every reset, DBUF at every DEINT too (10_state.md R44, R48). -/
def State.spaceEpoch (s : State) : Space → Nat
  | .ibuf => s.epoch
  | .obuf => s.epoch
  | .dbuf => s.dbufEpoch

/-- MemRead (00_scope.md R9): the byte in a cell; an unwritten cell reads as any byte (10_state.md R45), the same one
until the cell is written or its space erased (20_memory.md R66). Log entry 6. -/
def State.cell (s : State) (sp : Space) (a : Nat) : Byte :=
  match Store.read a (s.buf sp) with
  | some b => b
  | none => Config.unwrittenByte sp (s.spaceEpoch sp) a

end Sys2Proof.Machine
end

