-- ==== Sys2Proof/Machine/Flags.lean ====
section
/-! DEFINITION. STATUS, the block's only flags (10_state.md R23): its fields, the words the halts write (60_exceptions.md
R207, R210), and the flag a halt computes (SHORT). -/

namespace Sys2Proof.Machine

/-- The fields of STATUS (10_state.md R23); bits 31:12 are reserved and read as 0. -/
structure StatusFields where
  busy   : Bool := false
  done   : Bool := false
  err    : Bool := false
  eoi    : Bool := false
  count  : Bool := false
  trunc  : Bool := false
  short  : Bool := false
  noop   : Bool := false
  opk    : Bool := false
  ecause : BitVec 3 := 0
deriving DecidableEq, Repr

/-- The 32-bit value of STATUS: BUSY 0, DONE 1, ERR 2, END 3, COUNT 4, TRUNC 5, SHORT 6, NOOP 7, OPK 8, ECAUSE 11:9. -/
def statusWord (f : StatusFields) : BitVec 32 :=
  (0#20 : BitVec 20) ++ f.ecause ++ BitVec.ofBool f.opk ++ BitVec.ofBool f.noop ++ BitVec.ofBool f.short
    ++ BitVec.ofBool f.trunc ++ BitVec.ofBool f.count ++ BitVec.ofBool f.eoi ++ BitVec.ofBool f.err
    ++ BitVec.ofBool f.done ++ BitVec.ofBool f.busy

/-- The fields of a STATUS value. -/
def statusFields (w : BitVec 32) : StatusFields where
  busy := w.getLsbD 0
  done := w.getLsbD 1
  err := w.getLsbD 2
  eoi := w.getLsbD 3
  count := w.getLsbD 4
  trunc := w.getLsbD 5
  short := w.getLsbD 6
  noop := w.getLsbD 7
  opk := w.getLsbD 8
  ecause := w.extractLsb' 9 3

/-- STATUS.BUSY. -/
def State.busy (s : State) : Bool := s.status.getLsbD 0

/-- STATUS.ERR. -/
def State.err (s : State) : Bool := s.status.getLsbD 2

/-- STATUS.OPK. -/
def State.opk (s : State) : Bool := s.status.getLsbD 8

/-- STATUS while a command runs: BUSY, and OPK for a DEINT (43_host_commands.md R182). -/
def busyWord (opk : Bool) : BitVec 32 := statusWord { busy := true, opk := opk }

/-- STATUS after halt(END) (60_exceptions.md R210). -/
def endWord (short : Bool) : BitVec 32 := statusWord { done := true, eoi := true, short := short }

/-- STATUS after halt(COUNT) (60_exceptions.md R210). -/
def countWord : BitVec 32 := statusWord { done := true, count := true }

/-- STATUS after halt(TRUNC) (60_exceptions.md R210). -/
def truncWord : BitVec 32 := statusWord { done := true, trunc := true, short := true }

/-- STATUS after halt(DEINT_DONE) (60_exceptions.md R210). -/
def deintWord (noop : Bool) : BitVec 32 := statusWord { done := true, noop := noop, opk := true }

/-- STATUS after FormatError (60_exceptions.md R207). -/
def errorWord (cause : BitVec 3) : BitVec 32 := statusWord { err := true, ecause := cause }

/-- SHORT as halt(END) computes it: OCNT < EXPECT (60_exceptions.md R210). -/
def State.isShort (s : State) : Bool := decide (s.ocnt.toNat < s.expect.toNat)

end Sys2Proof.Machine
end

