-- ==== Sys2Proof/Machine/Ops.lean ====
section
/-! DEFINITION. The named operations over registers and buffers: the writes every meaning is made of, unspecified
registers, emission (41_lzw_codes.md R130), halts (60_exceptions.md R210), taking FormatError (60_exceptions.md R207) and
leaving a halt (43_host_commands.md R186), hardware reset (70_reset_and_hazards.md R230). -/

namespace Sys2Proof.Machine

/-! ## Writes -/

/-- STATUS <- w. -/
def setStatus (w : BitVec 32) (s : State) : State := { s with status := w }

/-- BITPOS <- p. -/
def setBitpos (p : BitVec 35) (s : State) : State := { s with bitpos := p }

/-- CODESIZE <- w. -/
def setCodesize (w : BitVec 4) (s : State) : State := { s with codesize := w }

/-- PREV <- p. -/
def setPrev (p : BitVec 13) (s : State) : State := { s with prev := p }

/-- TAB and NEXT together: an entry added, or the table reset. -/
def setTable (t : Table) (n : BitVec 13) (s : State) : State := { s with tab := t, next := n }

/-- OBUF and OCNT together: an index stored. -/
def setOutput (m : Memory) (n : BitVec 32) (s : State) : State := { s with obuf := m, ocnt := n }

/-- ECODE and EPOS together: the fault record. -/
def setRecord (code : Code) (pos : BitVec 35) (s : State) : State := { s with ecode := code, epos := pos }

/-- What the host's read returned. -/
def setLastRead (v : BitVec 35) (s : State) : State := { s with lastRead := some v }

/-- Whether the host has read STATUS with BUSY = 0 since the last accepted command (20_memory.md R71 b). -/
def setSynced (b : Bool) (s : State) : State := { s with synced := b }

/-- The host's coming moves. -/
def setScript (l : List HostMove) (s : State) : State := { s with script := l }

/-! ## Registers that nothing has written yet (10_state.md R45) -/

/-- What a register holds: its stored value, or a free value of its width while it is unspecified. Log entry 4. -/
def State.view {w : Nat} (s : State) (r : RegName) (stored : BitVec w) : BitVec w :=
  if s.unspec.contains r then (Config.unspecifiedReg r s.epoch).setWidth w else stored

/-- The registers still unspecified once those of `rs` are written. -/
def stillUnspec (rs : List RegName) (l : List RegName) : List RegName :=
  l.filter fun r => !rs.contains r

/-! ## Cursor -/

/-- The cursor part of Fetch (40_bit_cursor.md R114): BITPOS <- BITPOS + CODESIZE, the same for every code class. -/
def advance (s : State) : State := setBitpos (s.bitpos + s.codesize.setWidth 35) s

/-! ## PREV (10_state.md R36) -/

/-- PREV.V. -/
def State.prevV (s : State) : Bool := s.prev.getLsbD 12

/-- PREV.CODE. -/
def State.prevCode (s : State) : Code := s.prev.setWidth 12

/-- The value (V = 1, CODE = c) of PREV. -/
def prevOf (c : Code) : BitVec 13 := (1#1 : BitVec 1) ++ c

/-! ## Emission -/

/-- One turn of Emit (41_lzw_codes.md R130): stored at OCNT while OCNT < EXPECT, dropped otherwise. -/
def emitIndex (b : Byte) (s : State) : State :=
  if s.ocnt.toNat < s.expect.toNat then setOutput (Store.write s.ocnt.toNat b s.obuf) (s.ocnt + 1) s else s

/-- Emit (41_lzw_codes.md R129, R130): in order, first index first. -/
def emit (str : List Byte) (s : State) : State := str.foldl (fun t b => emitIndex b t) s

/-! ## Accepting a command -/

/-- On acceptance STATUS <- BUSY, with OPK for a DEINT (43_host_commands.md R182); the results are not readable again until
the host has read BUSY = 0 (70_reset_and_hazards.md R241 H-b). -/
def beginCommand (opk : Bool) (s : State) : State := setSynced false (setStatus (busyWord opk) s)

/-! ## Halts, FormatError, leaving a halt -/

/-- halt(END) (60_exceptions.md R210). -/
def haltEnd (s : State) : State := setStatus (endWord s.isShort) s

/-- halt(COUNT) (60_exceptions.md R210). -/
def haltCount (s : State) : State := setStatus countWord s

/-- halt(TRUNC) (60_exceptions.md R210). -/
def haltTrunc (s : State) : State := setStatus truncWord s

/-- halt(DEINT_DONE) (60_exceptions.md R210). -/
def haltDeint (noop : Bool) (s : State) : State := setStatus (deintWord noop) s

/-- raise FormatError(cause, code, pos) (60_exceptions.md R207): the record, then STATUS; nothing else changes and the
engine stops. -/
def raiseFormatError (cause : BitVec 3) (code : Code) (pos : BitVec 35) (s : State) : State :=
  setStatus (errorWord cause) (setRecord code pos s)

/-- Back to the idle state: STATUS <- 0 and nothing else (43_host_commands.md R186). There is no return instruction and
nothing was saved that could be restored (60_exceptions.md R211). -/
def leaveHalt (s : State) : State := setStatus 0 s

/-! ## Hardware reset -/

/-- Hardware reset (70_reset_and_hazards.md R230): the state of 10_state.md R48. The parameters and the host's own fields
stay; the free values of the next epoch are new ones. -/
def hardReset (s : State) : State :=
  { State.reset with
    params := s.params, script := s.script, lastRead := s.lastRead,
    epoch := s.epoch + 1, dbufEpoch := s.dbufEpoch + 1, draws := s.draws }

end Sys2Proof.Machine
end

