-- ==== Sys2Proof/Machine/Operands.lean ====
section
/-! DEFINITION. What the engine reads: the payload (40_bit_cursor.md R111), the state a code is decoded in, the code at
the cursor (40_bit_cursor.md R114), the string of a code (00_scope.md R11). -/

namespace Sys2Proof.Machine

/-- CONFIG.CHAIN (10_state.md R25). -/
def State.chain (s : State) : Bool := s.config.getLsbD 0

/-- IBUF[0 .. ILEN-1], in order. -/
def State.inputBytes (s : State) : List Byte :=
  (List.range s.ilen.toNat).map fun a => s.cell .ibuf a

/-- The data bytes of a sub-block chain (40_bit_cursor.md R111): exit (a) no length byte left, (b) terminator, (c) a
sub-block cut short, whose existing bytes are payload. The first argument bounds the number of sub-blocks. -/
def stripChain : Nat → List Byte → List Byte
  | 0, _ => []
  | _ + 1, [] => []
  | fuel + 1, n :: rest =>
    if n.toNat = 0 then []
    else rest.take n.toNat ++ stripChain fuel (rest.drop n.toNat)

/-- Payload() (40_bit_cursor.md R111). -/
def State.payload (s : State) : List Byte :=
  if s.chain then stripChain (s.inputBytes.length + 1) s.inputBytes else s.inputBytes

/-- BitsLeft() (40_bit_cursor.md R113). -/
def State.bitsLeft (s : State) : Nat := 8 * s.payload.length - s.bitpos.toNat

/-- The registers that decide the length and the class of the next code (30_encoding.md R91, R93). -/
def State.context (s : State) : CodeContext where
  mincs := s.mincs
  codesize := s.codesize
  next := s.next
  clearcode := s.clearcode
  endcode := s.endcode

/-- The code at the cursor: rejected where BitsLeft() < CODESIZE (40_bit_cursor.md R114, R116). -/
def State.fetch (s : State) : Decoded := decodeAt s.context s.payload s.bitpos.toNat

/-- A code is present when it is a literal entry or a learned one (41_lzw_codes.md R128). -/
def State.present (s : State) (c : Nat) : Bool :=
  decide (c < s.clearcode.toNat) || (decide (s.clearcode.toNat + 2 ≤ c) && decide (c < s.next.toNat))

/-- Str over a table (00_scope.md R11): literals below `clear`, learned entries from `clear + 2` up to `next`. None where
the code is not present or its chain reaches no literal within the given number of links. -/
def chainString (tab : Table) (clear next : Nat) : Nat → Nat → Option (List Byte)
  | 0, _ => none
  | fuel + 1, c =>
    if c < clear then some [BitVec.ofNat 8 c]
    else if clear + 2 ≤ c ∧ c < next then
      match Store.read c tab with
      | some ⟨some p, b⟩ => (chainString tab clear next fuel p.toNat).map fun str => str ++ [b]
      | _ => none
    else none

/-- Str(c) (00_scope.md R11). A chain descends (41_lzw_codes.md R131), so it has at most c links. -/
def State.str (s : State) (c : Code) : Option (List Byte) :=
  chainString s.tab s.clearcode.toNat s.next.toNat (c.toNat + 1) c.toNat

end Sys2Proof.Machine
end

