-- ==== Sys2Proof/Machine/CodeTable.lean ====
section
/-! DEFINITION. What the codes do to the code table: Add (41_lzw_codes.md R132), Grow (R133), TableReset (10_state.md R41),
and the initialisation of a decode (41_lzw_codes.md R125). -/

namespace Sys2Proof.Machine

/-- Grow() (41_lzw_codes.md R133): made right after an addition and nowhere else. -/
def grow (s : State) : State :=
  if s.next.toNat = 2 ^ s.codesize.toNat ∧ s.codesize.toNat < 12 then setCodesize (s.codesize + 1) s else s

/-- Add(p, b) (41_lzw_codes.md R132): nothing at all when the table is full. -/
def addEntry (p : Code) (b : Byte) (s : State) : State :=
  if s.next.toNat < 4096 then grow (setTable (Store.write s.next.toNat ⟨some p, b⟩ s.tab) (s.next + 1) s) else s

/-- The literal entries (NONE, k) for k below `clear` (10_state.md R40). -/
def literalEntries (clear : Nat) : Table :=
  (List.range clear).map fun k => (k, ⟨none, BitVec.ofNat 8 k⟩)

/-- A table whose literal entries are written anew and whose other entries stay as they are (10_state.md R41). -/
def withLiterals (clear : Nat) (t : Table) : Table :=
  literalEntries clear ++ t.filter fun e => decide (clear ≤ e.1)

/-- TableReset() (10_state.md R41): CODESIZE <- MINCS + 1, NEXT <- CLEARCODE + 2, PREV <- (0, 0), literal entries. -/
def tableReset (s : State) : State :=
  setPrev 0 (setCodesize (BitVec.ofNat 4 (s.mincs.toNat + 1))
    (setTable (withLiterals s.clearcode.toNat s.tab) (BitVec.ofNat 13 (s.clearcode.toNat + 2)) s))

/-- The registers DecodeInit writes that reset leaves unspecified (41_lzw_codes.md R125). -/
def decodeWrites : List RegName := [.bitpos, .codesize, .next, .prev, .clearcode, .endcode, .ocnt]

/-- The first lines of DecodeInit: CLEARCODE and ENDCODE, and the registers that become 0. -/
def decodeRegs (s : State) : State :=
  { s with
    clearcode := BitVec.ofNat 9 (2 ^ s.mincs.toNat), endcode := BitVec.ofNat 9 (2 ^ s.mincs.toNat + 1),
    bitpos := 0, ocnt := 0, ecode := 0, epos := 0, unspec := stillUnspec decodeWrites s.unspec }

/-- DecodeInit() (41_lzw_codes.md R125). -/
def decodeInit (s : State) : State := tableReset (decodeRegs s)

end Sys2Proof.Machine
end

