-- ==== Sys2Proof/Machine/Codes.lean ====
section
/-! DEFINITION. The six code classes (41_lzw_codes.md R134 to R139). Each meaning starts from the state in which BITPOS is
the position of the code's first bit, and advances the cursor itself (40_bit_cursor.md R114). -/

namespace Sys2Proof.Machine

/-- "On a code present in the table" (41_lzw_codes.md R134, R135): emit its string; if a previous string exists, add it
with the first index of this one; PREV <- (V=1, CODE=c). -/
def presentCode (c : Code) (first : Byte) (str : List Byte) (s : State) : State :=
  let t := emit str (advance s)
  let u := if t.prevV then addEntry t.prevCode first t else t
  setPrev (prevOf c) u

/-- LIT k (41_lzw_codes.md R134). -/
def literalCode (c : Code) (s : State) : State := presentCode c (c.setWidth 8) [c.setWidth 8] s

/-- CLR (41_lzw_codes.md R138). -/
def clearCode (s : State) : State := tableReset (advance s)

/-- END (41_lzw_codes.md R137). -/
def endCode (s : State) : State := haltEnd (advance s)

/-- REF c (41_lzw_codes.md R135). -/
def referenceCode (c : Code) (s : State) : Host.Outcome State Fault Refusal :=
  match s.str c with
  | some (b :: rest) => .next (presentCode c b (b :: rest) s)
  | _ => .fault .noString

/-- KWK with a previous string (41_lzw_codes.md R136): add (PREV.CODE, b), emit Str(PREV.CODE) ++ [b]. -/
def selfReference (c : Code) (b : Byte) (str : List Byte) (s : State) : State :=
  setPrev (prevOf c) (emit (str ++ [b]) (addEntry s.prevCode b (advance s)))

/-- KWK (41_lzw_codes.md R136): FormatError cause 1 where there is no previous string. -/
def kwkCode (c : Code) (s : State) : Host.Outcome State Fault Refusal :=
  if s.prevV then
    match s.str s.prevCode with
    | some (b :: rest) => .next (selfReference c b (b :: rest) s)
    | _ => .fault .noString
  else .next (raiseFormatError 1 c s.bitpos (advance s))

/-- INV c (41_lzw_codes.md R139): FormatError cause 2. -/
def invalidCode (c : Code) (s : State) : State := raiseFormatError 2 c s.bitpos (advance s)

/-- LIT k (41_lzw_codes.md R134). -/
def execLit (k : Code) (s : State) : Host.Outcome State Fault Refusal := .next (literalCode k s)

/-- CLR (41_lzw_codes.md R138). -/
def execClr (s : State) : Host.Outcome State Fault Refusal := .next (clearCode s)

/-- END (41_lzw_codes.md R137). -/
def execEoi (s : State) : Host.Outcome State Fault Refusal := .next (endCode s)

/-- REF c (41_lzw_codes.md R135). -/
def execRef (c : Code) (s : State) : Host.Outcome State Fault Refusal := referenceCode c s

/-- KWK (41_lzw_codes.md R136). -/
def execKwk (c : Code) (s : State) : Host.Outcome State Fault Refusal := kwkCode c s

/-- INV c (41_lzw_codes.md R139). -/
def execInv (c : Code) (s : State) : Host.Outcome State Fault Refusal := .next (invalidCode c s)

end Sys2Proof.Machine
end

