-- ==== Sys2Proof/Machine/CodeRows.lean ====
section
/-! DEFINITION. The exact rows of LIT, CLR and END for each legal MINCS (30_encoding.md R95, INDEX.md): the meaning of
each is its class's. Log entry 11. -/

namespace Sys2Proof.Machine

/-- LIT_M2: LIT with MINCS = 2, the operand 2 bits wide (41_lzw_codes.md R134, 30_encoding.md R95). -/
def execLitM2 (k : BitVec 2) (s : State) : Host.Outcome State Fault Refusal := .next (literalCode (k.setWidth 12) s)

/-- CLR_M2: CLR with MINCS = 2 (41_lzw_codes.md R138, 30_encoding.md R95). -/
def execClrM2 (s : State) : Host.Outcome State Fault Refusal := .next (clearCode s)

/-- END_M2: END with MINCS = 2 (41_lzw_codes.md R137, 30_encoding.md R95). -/
def execEoiM2 (s : State) : Host.Outcome State Fault Refusal := .next (endCode s)

/-- LIT_M3: LIT with MINCS = 3, the operand 3 bits wide (41_lzw_codes.md R134, 30_encoding.md R95). -/
def execLitM3 (k : BitVec 3) (s : State) : Host.Outcome State Fault Refusal := .next (literalCode (k.setWidth 12) s)

/-- CLR_M3: CLR with MINCS = 3 (41_lzw_codes.md R138, 30_encoding.md R95). -/
def execClrM3 (s : State) : Host.Outcome State Fault Refusal := .next (clearCode s)

/-- END_M3: END with MINCS = 3 (41_lzw_codes.md R137, 30_encoding.md R95). -/
def execEoiM3 (s : State) : Host.Outcome State Fault Refusal := .next (endCode s)

/-- LIT_M4: LIT with MINCS = 4, the operand 4 bits wide (41_lzw_codes.md R134, 30_encoding.md R95). -/
def execLitM4 (k : BitVec 4) (s : State) : Host.Outcome State Fault Refusal := .next (literalCode (k.setWidth 12) s)

/-- CLR_M4: CLR with MINCS = 4 (41_lzw_codes.md R138, 30_encoding.md R95). -/
def execClrM4 (s : State) : Host.Outcome State Fault Refusal := .next (clearCode s)

/-- END_M4: END with MINCS = 4 (41_lzw_codes.md R137, 30_encoding.md R95). -/
def execEoiM4 (s : State) : Host.Outcome State Fault Refusal := .next (endCode s)

/-- LIT_M5: LIT with MINCS = 5, the operand 5 bits wide (41_lzw_codes.md R134, 30_encoding.md R95). -/
def execLitM5 (k : BitVec 5) (s : State) : Host.Outcome State Fault Refusal := .next (literalCode (k.setWidth 12) s)

/-- CLR_M5: CLR with MINCS = 5 (41_lzw_codes.md R138, 30_encoding.md R95). -/
def execClrM5 (s : State) : Host.Outcome State Fault Refusal := .next (clearCode s)

/-- END_M5: END with MINCS = 5 (41_lzw_codes.md R137, 30_encoding.md R95). -/
def execEoiM5 (s : State) : Host.Outcome State Fault Refusal := .next (endCode s)

/-- LIT_M6: LIT with MINCS = 6, the operand 6 bits wide (41_lzw_codes.md R134, 30_encoding.md R95). -/
def execLitM6 (k : BitVec 6) (s : State) : Host.Outcome State Fault Refusal := .next (literalCode (k.setWidth 12) s)

/-- CLR_M6: CLR with MINCS = 6 (41_lzw_codes.md R138, 30_encoding.md R95). -/
def execClrM6 (s : State) : Host.Outcome State Fault Refusal := .next (clearCode s)

/-- END_M6: END with MINCS = 6 (41_lzw_codes.md R137, 30_encoding.md R95). -/
def execEoiM6 (s : State) : Host.Outcome State Fault Refusal := .next (endCode s)

/-- LIT_M7: LIT with MINCS = 7, the operand 7 bits wide (41_lzw_codes.md R134, 30_encoding.md R95). -/
def execLitM7 (k : BitVec 7) (s : State) : Host.Outcome State Fault Refusal := .next (literalCode (k.setWidth 12) s)

/-- CLR_M7: CLR with MINCS = 7 (41_lzw_codes.md R138, 30_encoding.md R95). -/
def execClrM7 (s : State) : Host.Outcome State Fault Refusal := .next (clearCode s)

/-- END_M7: END with MINCS = 7 (41_lzw_codes.md R137, 30_encoding.md R95). -/
def execEoiM7 (s : State) : Host.Outcome State Fault Refusal := .next (endCode s)

/-- LIT_M8: LIT with MINCS = 8, the operand 8 bits wide (41_lzw_codes.md R134, 30_encoding.md R95). -/
def execLitM8 (k : BitVec 8) (s : State) : Host.Outcome State Fault Refusal := .next (literalCode (k.setWidth 12) s)

/-- CLR_M8: CLR with MINCS = 8 (41_lzw_codes.md R138, 30_encoding.md R95). -/
def execClrM8 (s : State) : Host.Outcome State Fault Refusal := .next (clearCode s)

/-- END_M8: END with MINCS = 8 (41_lzw_codes.md R137, 30_encoding.md R95). -/
def execEoiM8 (s : State) : Host.Outcome State Fault Refusal := .next (endCode s)

end Sys2Proof.Machine
end

