-- ==== Sys2Proof/Machine/Deinterlace.lean ====
section
/-! DEFINITION. The de-interleaver (42_deinterlace.md): the row map and its inverse (R161), the no-op path (R162), the
whole operation (R163). -/

namespace Sys2Proof.Machine

/-- n1, the number of rows of pass 1 (42_deinterlace.md R161). -/
def passRows1 (h : Nat) : Nat := (h + 7) / 8
/-- n2, the number of rows of pass 2. -/
def passRows2 (h : Nat) : Nat := (h + 3) / 8
/-- n3, the number of rows of pass 3. -/
def passRows3 (h : Nat) : Nat := (h + 1) / 4

/-- RowMap(h, s): the destination row of interlaced row s (42_deinterlace.md R161). -/
def rowMap (h s : Nat) : Nat :=
  if s < passRows1 h then 8 * s
  else if s < passRows1 h + passRows2 h then 8 * (s - passRows1 h) + 4
  else if s < passRows1 h + passRows2 h + passRows3 h then 4 * (s - passRows1 h - passRows2 h) + 2
  else 2 * (s - passRows1 h - passRows2 h - passRows3 h) + 1

/-- SrcRow(h, d): the interlaced row that destination row d comes from (42_deinterlace.md R161). -/
def srcRow (h d : Nat) : Nat :=
  if d % 8 = 0 then d / 8
  else if d % 8 = 4 then passRows1 h + (d - 4) / 8
  else if d % 4 = 2 then passRows1 h + passRows2 h + (d - 2) / 4
  else passRows1 h + passRows2 h + passRows3 h + (d - 1) / 2

/-- The no-op conditions (42_deinterlace.md R162). -/
def State.deintNoop (s : State) : Bool :=
  decide (s.height.toNat ≤ 1) || decide (s.ocnt.toNat < s.width.toNat) || decide (s.width.toNat = 0)

/-- Where index i of the interlaced sequence goes (42_deinterlace.md R163). -/
def deintCell (w h i : Nat) : Nat := rowMap h (i / w) * w + i % w

/-- DBUF once the first m indices of OBUF are copied, index i to cell `dest i`, DBUF being wholly unwritten before. -/
def copiedOutput (s : State) (dest : Nat → Nat) (m : Nat) : Memory :=
  (List.range m).foldl (fun mem i => Store.write (dest i) (s.cell .obuf i) mem) []

/-- DBUF <- m (all its old cells gone), DLEN <- n (42_deinterlace.md R163, 10_state.md R44). -/
def setDeint (m : Memory) (n : BitVec 32) (s : State) : State :=
  { s with dbuf := m, dlen := n, dbufEpoch := s.dbufEpoch + 1, unspec := stillUnspec [.dlen] s.unspec }

/-- Deinterlace() (42_deinterlace.md R162, R163), ending in halt(DEINT_DONE). -/
def deinterlace (s : State) : State :=
  if s.deintNoop then
    haltDeint true (setDeint (copiedOutput s (fun i => i) s.ocnt.toNat) s.ocnt s)
  else
    haltDeint false (setDeint
      (copiedOutput s (deintCell s.width.toNat s.height.toNat) (min s.ocnt.toNat (s.width.toNat * s.height.toNat)))
      (BitVec.ofNat 32 (s.width.toNat * s.height.toNat)) s)

end Sys2Proof.Machine
end

