-- ==== Sys2Proof/Machine/Commands.lean ====
section
/-! DEFINITION. The host's commands (43_host_commands.md R182 to R186): the busy test and the admission test come first
(60_exceptions.md R208), then the command's own effect. -/

namespace Sys2Proof.Machine

/-- The operand registers of DECODE that reset leaves unspecified (70_reset_and_hazards.md R235). -/
def decodeOperands : List RegName := [.mincs, .expect, .ilen]

/-- The operand registers of DEINT (70_reset_and_hazards.md R235). -/
def deintOperands : List RegName := [.width, .height, .ocnt]

/-- The operands of DECODE as the command finds them: one that nothing has written is the free value a read of it gives,
which the register holds from then on (70_reset_and_hazards.md R235: "the command runs with an unspecified value of it").
Log entry 5. -/
def settleDecode (s : State) : State :=
  { s with
    mincs := s.view .mincs s.mincs, expect := s.view .expect s.expect, ilen := s.view .ilen s.ilen,
    unspec := stillUnspec decodeOperands s.unspec }

/-- The operands of DEINT as the command finds them (70_reset_and_hazards.md R235). Log entry 5. -/
def settleDeint (s : State) : State :=
  { s with
    width := s.view .width s.width, height := s.view .height s.height, ocnt := s.view .ocnt s.ocnt,
    unspec := stillUnspec deintOperands s.unspec }

/-- The admission test of DECODE (43_host_commands.md R183). -/
def State.decodeFits (s : State) : Bool :=
  decide (s.ilen.toNat ≤ s.params.ibufCap.toNat) && decide (s.expect.toNat ≤ s.params.obufCap.toNat)

/-- The admission test of DEINT (43_host_commands.md R183). -/
def State.deintFits (s : State) : Bool :=
  decide (s.ocnt.toNat ≤ s.params.obufCap.toNat) &&
    (if s.deintNoop then decide (s.ocnt.toNat ≤ s.params.dbufCap.toNat)
     else decide (s.width.toNat * s.height.toNat ≤ s.params.dbufCap.toNat))

/-- MINCS legal (10_state.md R27). -/
def State.mincsLegal (s : State) : Bool := decide (2 ≤ s.mincs.toNat) && decide (s.mincs.toNat ≤ 8)

/-- An accepted DECODE up to its first step (43_host_commands.md R184): STATUS <- BUSY, then FormatError cause 3, or
DecodeInit. The engine's steps follow one by one. -/
def startDecode (s : State) : State :=
  if s.mincsLegal then decodeInit (beginCommand false s)
  else raiseFormatError 3 0 0 (beginCommand false s)

/-- An accepted DEINT (43_host_commands.md R185), whole. Log entry 9. -/
def startDeint (s : State) : State := deinterlace (beginCommand true s)

/-- What comes before a command that reads operands: no effect while busy (43_host_commands.md R181, R187), refused beyond
capacity (43_host_commands.md R183). The last argument is the state with the operands as the command finds them. -/
def admitted (fits : State → Bool) (accept : State → State) (s settled : State) : Host.Outcome State Fault Refusal :=
  if s.busy then .next s
  else if fits settled then .next (accept settled)
  else .refused .commandBeyondCapacity

/-- DECODE (43_host_commands.md R184). -/
def execDecode (s : State) : Host.Outcome State Fault Refusal :=
  admitted State.decodeFits startDecode s (settleDecode s)

/-- DEINT (43_host_commands.md R185). -/
def execDeint (s : State) : Host.Outcome State Fault Refusal :=
  admitted State.deintFits startDeint s (settleDeint s)

/-- CLEAR (43_host_commands.md R186). While busy it has no effect (R181, R187). -/
def execClear (s : State) : Host.Outcome State Fault Refusal :=
  if s.busy then .next s else .next (leaveHalt s)

end Sys2Proof.Machine
end

