-- ==== Sys2Proof/Machine/Dispatch.lean ====
section
/-! DEFINITION. The dispatch: one arm per instruction, one direct call of its meaning. -/

namespace Sys2Proof.Machine

def exec (i : Instr) (s : State) : Host.Outcome State Fault Refusal :=
  match i with
  | .lit k => Sys2Proof.Machine.execLit k s
  | .clr => Sys2Proof.Machine.execClr s
  | .eoi => Sys2Proof.Machine.execEoi s
  | .ref c => Sys2Proof.Machine.execRef c s
  | .kwk c => Sys2Proof.Machine.execKwk c s
  | .inv c => Sys2Proof.Machine.execInv c s
  | .litM2 k => Sys2Proof.Machine.execLitM2 k s
  | .clrM2 => Sys2Proof.Machine.execClrM2 s
  | .eoiM2 => Sys2Proof.Machine.execEoiM2 s
  | .litM3 k => Sys2Proof.Machine.execLitM3 k s
  | .clrM3 => Sys2Proof.Machine.execClrM3 s
  | .eoiM3 => Sys2Proof.Machine.execEoiM3 s
  | .litM4 k => Sys2Proof.Machine.execLitM4 k s
  | .clrM4 => Sys2Proof.Machine.execClrM4 s
  | .eoiM4 => Sys2Proof.Machine.execEoiM4 s
  | .litM5 k => Sys2Proof.Machine.execLitM5 k s
  | .clrM5 => Sys2Proof.Machine.execClrM5 s
  | .eoiM5 => Sys2Proof.Machine.execEoiM5 s
  | .litM6 k => Sys2Proof.Machine.execLitM6 k s
  | .clrM6 => Sys2Proof.Machine.execClrM6 s
  | .eoiM6 => Sys2Proof.Machine.execEoiM6 s
  | .litM7 k => Sys2Proof.Machine.execLitM7 k s
  | .clrM7 => Sys2Proof.Machine.execClrM7 s
  | .eoiM7 => Sys2Proof.Machine.execEoiM7 s
  | .litM8 k => Sys2Proof.Machine.execLitM8 k s
  | .clrM8 => Sys2Proof.Machine.execClrM8 s
  | .eoiM8 => Sys2Proof.Machine.execEoiM8 s
  | .decode => Sys2Proof.Machine.execDecode s
  | .deint => Sys2Proof.Machine.execDeint s
  | .clear => Sys2Proof.Machine.execClear s

end Sys2Proof.Machine
end

