-- ==== Sys2Proof/Machine/HostAccess.lean ====
section
/-! DEFINITION. The host's register and buffer actions (43_host_commands.md R188) under the busy rule (R181). -/

namespace Sys2Proof.Machine

/-- ReadReg(n) with BUSY = 0 (43_host_commands.md R188), zero-extended to the widest register; an unspecified register
reads as a free value (10_state.md R45). -/
def readRegister (s : State) : Nat → BitVec 35
  | 1 => s.status.setWidth 35
  | 2 => s.config.setWidth 35
  | 3 => (s.view .mincs s.mincs).setWidth 35
  | 4 => (s.view .expect s.expect).setWidth 35
  | 5 => (s.view .ilen s.ilen).setWidth 35
  | 6 => (s.view .width s.width).setWidth 35
  | 7 => (s.view .height s.height).setWidth 35
  | 8 => (s.view .ocnt s.ocnt).setWidth 35
  | 9 => (s.view .dlen s.dlen).setWidth 35
  | 10 => s.view .bitpos s.bitpos
  | 11 => (s.view .codesize s.codesize).setWidth 35
  | 12 => (s.view .next s.next).setWidth 35
  | 13 => (s.view .prev s.prev).setWidth 35
  | 14 => (s.view .clearcode s.clearcode).setWidth 35
  | 15 => (s.view .endcode s.endcode).setWidth 35
  | 16 => s.ecode.setWidth 35
  | 17 => s.epos
  | _ => 0

/-- WriteReg(n, v) for n other than 0, with BUSY = 0 (43_host_commands.md R188): cut to the register's width; a write of a
read-only or absent register is ignored (10_state.md R21). -/
def writeRegister (n v : Nat) (s : State) : State :=
  match n with
  | 2 => { s with config := BitVec.ofNat 32 (v % 2) }
  | 3 => { s with mincs := BitVec.ofNat 8 v, unspec := stillUnspec [.mincs] s.unspec }
  | 4 => { s with expect := BitVec.ofNat 32 v, unspec := stillUnspec [.expect] s.unspec }
  | 5 => { s with ilen := BitVec.ofNat 32 v, unspec := stillUnspec [.ilen] s.unspec }
  | 6 => { s with width := BitVec.ofNat 16 v, unspec := stillUnspec [.width] s.unspec }
  | 7 => { s with height := BitVec.ofNat 16 v, unspec := stillUnspec [.height] s.unspec }
  | 8 => { s with ocnt := BitVec.ofNat 32 v, unspec := stillUnspec [.ocnt] s.unspec }
  | _ => s

/-- The width of register n (10_state.md R21); of a number that no register has, the width of the widest. -/
def registerWidth : Nat → Nat
  | 0 => 32
  | 1 => 32
  | 2 => 32
  | 3 => 8
  | 4 => 32
  | 5 => 32
  | 6 => 16
  | 7 => 16
  | 8 => 32
  | 9 => 32
  | 10 => 35
  | 11 => 4
  | 12 => 13
  | 13 => 13
  | 14 => 9
  | 15 => 9
  | 16 => 12
  | _ => 35

/-- The registers that hold what commands compute: the results OCNT, DLEN, ECODE, EPOS and the working registers BITPOS to
ENDCODE (10_state.md sections 4, 5; 70_reset_and_hazards.md R241 H-b, 20_memory.md R71 b). -/
def resultRegister (n : Nat) : Bool := decide (8 ≤ n) && decide (n ≤ 17)

/-- The buffers that hold what commands compute (70_reset_and_hazards.md R241 H-b). -/
def resultSpace : Space → Bool
  | .ibuf => false
  | .obuf => true
  | .dbuf => true

/-- A read that the busy handshake leaves unspecified (43_host_commands.md R181, 70_reset_and_hazards.md R241 H-b): a fresh
draw of the width w of what is read (10_state.md R45). Log entries 8, 32. -/
def unsyncedDraw (w : Nat) (s : State) : State :=
  { setLastRead (((Config.unsyncedRead s.draws).setWidth w).setWidth 35) s with draws := s.draws + 1 }

/-- Host read of STATUS, possible at any time (43_host_commands.md R181); one that finds BUSY = 0 makes the results of the
command readable (20_memory.md R71 b). -/
def readStatus (s : State) : State := setSynced (s.synced || !s.busy) (setLastRead (readRegister s 1) s)

/-- Host read of register n (43_host_commands.md R181, R188): of a register other than STATUS unspecified while BUSY = 1, of
a result also until BUSY = 0 has been read. -/
def hostReadReg (n : Nat) (s : State) : State :=
  if n = 1 then readStatus s
  else if s.busy || (resultRegister n && !s.synced) then unsyncedDraw (registerWidth n) s
  else setLastRead (readRegister s n) s

/-- Host write of register n other than CTRL; ignored while busy (43_host_commands.md R181). -/
def hostWriteReg (n v : Nat) (s : State) : State := if s.busy then s else writeRegister n v s

/-- Host read of a buffer cell (43_host_commands.md R181, R188): unspecified while BUSY = 1, of a result also until BUSY = 0
has been read; refused at or above the capacity. -/
def hostReadBuf (sp : Space) (a : Nat) (s : State) : Host.Outcome State Fault Refusal :=
  if s.busy then .next (unsyncedDraw 8 s)
  else if a < s.capacity sp then
    .next (if resultSpace sp && !s.synced then unsyncedDraw 8 s else setLastRead ((s.cell sp a).setWidth 35) s)
  else .refused .bufferBeyondCapacity

/-- WriteBuf(S, a, v) with BUSY = 0 and a below the capacity (43_host_commands.md R188); a write of DBUF is ignored. -/
def writeBuffer (sp : Space) (a v : Nat) (s : State) : State :=
  match sp with
  | .ibuf => { s with ibuf := Store.write a (BitVec.ofNat 8 v) s.ibuf }
  | .obuf => { s with obuf := Store.write a (BitVec.ofNat 8 v) s.obuf }
  | .dbuf => s

/-- Host write of a buffer cell; ignored while busy (43_host_commands.md R181), refused at or above the capacity. -/
def hostWriteBuf (sp : Space) (a v : Nat) (s : State) : Host.Outcome State Fault Refusal :=
  if s.busy then .next s
  else if a < s.capacity sp then .next (writeBuffer sp a v s)
  else .refused .bufferBeyondCapacity

end Sys2Proof.Machine
end

