-- ==== Sys2Proof/Machine/Engine.lean ====
section
/-! DEFINITION. One step of the whole: the engine's step (41_lzw_codes.md R126, 42_deinterlace.md R163,
43_host_commands.md R182), a host action (43_host_commands.md R180), and which of the two happens. -/

namespace Sys2Proof.Machine

/-- DecodeStep() (41_lzw_codes.md R126): the count test, the exhaustion test, then fetch and execute. -/
def decodeStep (s : State) : Host.Outcome State Fault Refusal :=
  if s.expect.toNat ≤ s.ocnt.toNat then .next (haltCount s)
  else match s.fetch with
    | .rejected _ => .next (haltTrunc s)
    | .ok i => exec i s

/-- What the engine does when it may make a step: nothing while at rest (43_host_commands.md R182), a DecodeStep while a
DECODE runs, the whole reordering while a DEINT runs (00_scope.md R12). -/
def engineStep (s : State) : Host.Outcome State Fault Refusal :=
  if s.busy then (if s.opk then .next (deinterlace s) else decodeStep s) else .next s

/-- A write of CTRL: a command value runs its instruction, a reserved value has no effect (43_host_commands.md R187). -/
def hostCommand (v : Nat) (s : State) : Host.Outcome State Fault Refusal :=
  match decodeCtrl (BitVec.ofNat 32 v) with
  | .ok i => exec i s
  | .rejected _ => .next s

/-- One host action (43_host_commands.md R180, R188). -/
def hostAct (a : HostAction) (s : State) : Host.Outcome State Fault Refusal :=
  match a with
  | .readReg n => .next (hostReadReg n s)
  | .writeReg n v => if n = 0 then hostCommand v s else .next (hostWriteReg n v s)
  | .readBuf sp c => hostReadBuf sp c s
  | .writeBuf sp c v => hostWriteBuf sp c v s
  | .reset => .next (hardReset s)

/-- One step: the host's next move if it has one, else the engine's. A poll reads STATUS until BUSY = 0 while the engine
runs (43_host_commands.md R189). Log entry 1. -/
def machineStep (s : State) : Host.Outcome State Fault Refusal :=
  match s.script with
  | .act a :: rest => hostAct a (setScript rest s)
  | .pass :: rest => engineStep (setScript rest s)
  | .poll :: rest => if s.busy then engineStep s else .next (readStatus (setScript rest s))
  | [] => engineStep s

/-! ## Placing a table word where the next step runs it -/

/-- A payload of two bytes in IBUF and a DECODE that has just been accepted with it, its registers as `tableContext`
says: what the host's writes and the DECODE command leave (43_host_commands.md R189). Log entry 19. -/
def placeCode (v : Nat) (s : State) : State :=
  let x := tableContext v
  let t := decodeInit
    { s with
      status := busyWord false, synced := false, config := 0, mincs := x.mincs, expect := 1, ilen := 2, script := [],
      unspec := stillUnspec [.mincs, .expect, .ilen] s.unspec,
      ibuf := Store.write 0 (BitVec.ofNat 8 v) (Store.write 1 (BitVec.ofNat 8 (v / 256)) s.ibuf) }
  setTable t.tab x.next (setCodesize x.codesize t)

/-- A block at rest whose operand registers are written (legal ones), and a host about to write the command to CTRL.
Log entry 19. -/
def placeCommand (v : Nat) (s : State) : State :=
  { s with
    status := 0, mincs := 2, expect := 0, ilen := 0, width := 0, height := 0, ocnt := 0,
    unspec := stillUnspec [.mincs, .expect, .ilen, .width, .height, .ocnt] s.unspec,
    script := [.act (.writeReg 0 v)] }

/-- A table word placed where the next step runs it. -/
def placeWord (nbits w : Nat) (s : State) : State :=
  if nbits ≤ 16 then placeCode (tableValue nbits w) s else placeCommand (w % 2 ^ nbits) s

end Sys2Proof.Machine
end

