-- ==== Sys2Proof/Machine/Step.lean ====
section
/-! DEFINITION. The step of the machine. -/

namespace Sys2Proof.Machine

/-- One step (Engine.lean). -/
def step (s : State) : Host.Outcome State Fault Refusal := machineStep s

/-- The state in which the next step runs the instruction of a table word (Engine.lean). -/
def State.withFetchWord (s : State) (nbits w : Nat) : State := placeWord nbits w s

end Sys2Proof.Machine
end

