-- ==== Sys2Proof/Machine/Listing.lean ====
section
/-! DEFINITION. Code streams as listings (30_encoding.md R98): assembling to bytes (R99), sub-block framing (20_memory.md
R68), disassembling (30_encoding.md R100), and the reference encoder of 95_test_vectors.md section 4. These are tools of
the spec for its tests; the block itself contains no encoder (00_scope.md R5). -/

namespace Sys2Proof.Machine

/-- A code line of a listing (30_encoding.md R98). -/
inductive Line where
  | lit (k : Nat)
  | clr
  | eoi
  | ref (c : Nat)
  | kwk
  | raw (v : Nat)
deriving DecidableEq, Repr

/-- The assembler's shadow of CODESIZE, NEXT and PREV.V (30_encoding.md R99). -/
structure Shadow where
  codesize : Nat
  next     : Nat
  prevV    : Bool
deriving DecidableEq, Repr

/-- The shadow as DECODE initialises it, and as a clear code leaves it (30_encoding.md R99). DESIGN CHOICE, log entry 33: it
is made for every MINCS, also outside 2 to 8, where DECODE faults and initialises nothing (43_host_commands.md R184). -/
def shadowInit (mincs : Nat) : Shadow := ⟨mincs + 1, 2 ^ mincs + 2, false⟩

/-- The value a line stands for (30_encoding.md R98). -/
def lineValue (mincs : Nat) (sh : Shadow) : Line → Nat
  | .lit k => k
  | .clr => 2 ^ mincs
  | .eoi => 2 ^ mincs + 1
  | .ref c => c
  | .kwk => sh.next
  | .raw v => v

/-- Add and Grow on the shadow (41_lzw_codes.md R132, R133). -/
def shadowAdd (sh : Shadow) : Shadow :=
  if sh.next < 4096 then
    ⟨if sh.next + 1 = 2 ^ sh.codesize ∧ sh.codesize < 12 then sh.codesize + 1 else sh.codesize, sh.next + 1, sh.prevV⟩
  else sh

/-- The shadow after the decoder has executed a code of this value; END, INV and a KWK without previous string end the
decode and leave it (30_encoding.md R99). -/
def shadowAfter (mincs v : Nat) (sh : Shadow) : Shadow :=
  let added := if sh.prevV then shadowAdd sh else sh
  if v < 2 ^ mincs then { added with prevV := true }
  else if v = 2 ^ mincs then shadowInit mincs
  else if v = 2 ^ mincs + 1 then sh
  else if v < sh.next then { added with prevV := true }
  else if v = sh.next then added
  else sh

/-- The bits of a listing, each line at the width the decoder has when it reaches it (30_encoding.md R91, R99). DESIGN
CHOICE, log entry 30: a line whose value is outside the bounds of R90 and R98 is no error; the low CODESIZE bits of the
value are put out, and the shadow follows the uncut value. -/
def assembleBits (mincs : Nat) : Shadow → List Line → List Bool
  | _, [] => []
  | sh, l :: ls =>
    codeBits sh.codesize (lineValue mincs sh l)
      ++ assembleBits mincs (shadowAfter mincs (lineValue mincs sh l) sh) ls

/-- The payload of a listing (30_encoding.md R99). -/
def assemble (mincs : Nat) (ls : List Line) : List Byte := packBits (assembleBits mincs (shadowInit mincs) ls)

/-- A sub-block chain: each sub-block after its length byte, then a zero byte (20_memory.md R68). -/
def frameCut : List (List Byte) → List Byte
  | [] => [0]
  | b :: bs => BitVec.ofNat 8 b.length :: (b ++ frameCut bs)

/-- A cut of a payload into sub-blocks of 1 to 255 bytes (20_memory.md R68, 30_encoding.md R99). -/
def legalCut (bs : List (List Byte)) : Bool := bs.all fun b => decide (1 ≤ b.length) && decide (b.length ≤ 255)

/-- The sub-blocks the model's assembler cuts a payload into. DESIGN CHOICE, log entry 31: 30_encoding.md R99 lets them be
of any size up to 255 bytes; every one but the last is filled to 255. The first argument bounds their number. -/
def frameBlocks : Nat → List Byte → List (List Byte)
  | 0, _ => []
  | _ + 1, [] => []
  | fuel + 1, b :: p => (b :: p).take 255 :: frameBlocks fuel ((b :: p).drop 255)

/-- The sub-block chain the model's assembler makes of a payload (20_memory.md R68). Log entry 31. -/
def frameChain (p : List Byte) : List Byte := frameCut (frameBlocks p.length p)

/-- One row of a disassembly: bit position, width, and the instruction (30_encoding.md R100). -/
structure ListingRow where
  pos   : Nat
  width : Nat
  code  : Instr
deriving DecidableEq, Repr

/-- Disassembling is running the decoder and noting each code, up to the halt (30_encoding.md R100). The first argument
bounds the number of rows. -/
def disassemble : Nat → State → List ListingRow
  | 0, _ => []
  | fuel + 1, s =>
    if s.busy && !s.opk && decide (s.ocnt.toNat < s.expect.toNat) then
      match s.fetch with
      | .rejected _ => []
      | .ok i =>
        ⟨s.bitpos.toNat, s.codesize.toNat, i⟩ ::
          (match exec i s with
            | .next t => disassemble fuel t
            | .fault _ => []
            | .refused _ => [])
    else []

/-! ## The reference encoder (95_test_vectors.md section 4; PRESUMED, log entry 23) -/

/-- The encoder's dictionary from index strings to codes. -/
abbrev Dictionary := List (List Byte × Nat)

/-- The code of a string, none where it has none. -/
def codeOf (str : List Byte) : Dictionary → Option Nat
  | [] => none
  | (u, c) :: d => if str = u then some c else codeOf str d

/-- The dictionary before the first index: the literals. -/
def literalDictionary (mincs : Nat) : Dictionary :=
  (List.range (2 ^ mincs)).map fun k => ([BitVec.ofNat 8 k], k)

/-- The encoder's loop: dictionary, next code, current string, the indices to come; the codes it puts out. -/
def encodeLoop : Dictionary → Nat → List Byte → List Byte → List Nat
  | _, _, [], [] => []
  | d, _, b :: w, [] => [(codeOf (b :: w) d).getD 0]
  | d, nxt, w, k :: ks =>
    match codeOf (w ++ [k]) d with
    | some _ => encodeLoop d nxt (w ++ [k]) ks
    | none =>
      (codeOf w d).getD 0 ::
        (if nxt < 4096 then encodeLoop ((w ++ [k], nxt) :: d) (nxt + 1) [k] ks
         else encodeLoop d nxt [k] ks)

/-- Encode(idx, mincs): a leading clear code, the codes, the end code. -/
def referenceCodes (mincs : Nat) (idx : List Byte) : List Nat :=
  2 ^ mincs :: (encodeLoop (literalDictionary mincs) (2 ^ mincs + 2) [] idx ++ [2 ^ mincs + 1])

/-- The payload the reference encoder makes, packed as 30_encoding.md R99 says. -/
def referencePayload (mincs : Nat) (idx : List Byte) : List Byte :=
  assemble mincs ((referenceCodes mincs idx).map Line.raw)

/-! ## What a host does before a command (43_host_commands.md R189) -/

/-- Host writes of bytes to consecutive IBUF cells. -/
def writeInput (at0 : Nat) : List Byte → List HostMove
  | [] => []
  | b :: bs => .act (.writeBuf .ibuf at0 b.toNat) :: writeInput (at0 + 1) bs

/-- Steps 2 to 4 of the host's protocol (43_host_commands.md R189): input, ILEN, CONFIG, MINCS, EXPECT, the command,
polling. -/
def decodeMoves (chain : Bool) (mincs expect : Nat) (input : List Byte) : List HostMove :=
  writeInput 0 input ++
    [.act (.writeReg 5 input.length), .act (.writeReg 2 chain.toNat), .act (.writeReg 3 mincs),
     .act (.writeReg 4 expect), .act (.writeReg 0 1), .poll]

/-- Step 6 of the host's protocol (43_host_commands.md R189). -/
def deintMoves (width height : Nat) : List HostMove :=
  [.act (.writeReg 6 width), .act (.writeReg 7 height), .act (.writeReg 0 2), .poll]

end Sys2Proof.Machine
end

