-- ==== Sys2Proof/Safety.lean ====
section
/-! DEFINITION. What counts as a safe state and a safe run, in the terms the statements use: the invariants of STATUS
(10_state.md R24), of the working registers (R39), of the code table (41_lzw_codes.md R131), of the buffers (20_memory.md
R67); which instructions are the forms of one class; what a code leaves unchanged; runs; the decoder over strings
(41_lzw_codes.md R142). -/

namespace Sys2Proof.Machine

/-! ## What the host has written -/

/-- Every register of `rs` has been written since reset (70_reset_and_hazards.md R235): the operands on which a statement
about a command may rest (93_implementation_defined.md U2). -/
def State.written (s : State) (rs : List RegName) : Bool := rs.all fun r => !s.unspec.contains r

/-! ## The forms of one class -/

/-- The code value of a LIT form: LIT and LIT_M2 to LIT_M8 (41_lzw_codes.md R134). -/
def literalOf : Instr → Option Code
  | .lit k => some k
  | .clr => none
  | .eoi => none
  | .ref _ => none
  | .kwk _ => none
  | .inv _ => none
  | .litM2 k => some (k.setWidth 12)
  | .clrM2 => none
  | .eoiM2 => none
  | .litM3 k => some (k.setWidth 12)
  | .clrM3 => none
  | .eoiM3 => none
  | .litM4 k => some (k.setWidth 12)
  | .clrM4 => none
  | .eoiM4 => none
  | .litM5 k => some (k.setWidth 12)
  | .clrM5 => none
  | .eoiM5 => none
  | .litM6 k => some (k.setWidth 12)
  | .clrM6 => none
  | .eoiM6 => none
  | .litM7 k => some (k.setWidth 12)
  | .clrM7 => none
  | .eoiM7 => none
  | .litM8 k => some (k.setWidth 12)
  | .clrM8 => none
  | .eoiM8 => none
  | .decode => none
  | .deint => none
  | .clear => none

/-- CLR and CLR_M2 to CLR_M8 (41_lzw_codes.md R138). -/
def isClear : Instr → Bool
  | .lit _ => false
  | .clr => true
  | .eoi => false
  | .ref _ => false
  | .kwk _ => false
  | .inv _ => false
  | .litM2 _ => false
  | .clrM2 => true
  | .eoiM2 => false
  | .litM3 _ => false
  | .clrM3 => true
  | .eoiM3 => false
  | .litM4 _ => false
  | .clrM4 => true
  | .eoiM4 => false
  | .litM5 _ => false
  | .clrM5 => true
  | .eoiM5 => false
  | .litM6 _ => false
  | .clrM6 => true
  | .eoiM6 => false
  | .litM7 _ => false
  | .clrM7 => true
  | .eoiM7 => false
  | .litM8 _ => false
  | .clrM8 => true
  | .eoiM8 => false
  | .decode => false
  | .deint => false
  | .clear => false

/-- END and END_M2 to END_M8 (41_lzw_codes.md R137). -/
def isEnd : Instr → Bool
  | .lit _ => false
  | .clr => false
  | .eoi => true
  | .ref _ => false
  | .kwk _ => false
  | .inv _ => false
  | .litM2 _ => false
  | .clrM2 => false
  | .eoiM2 => true
  | .litM3 _ => false
  | .clrM3 => false
  | .eoiM3 => true
  | .litM4 _ => false
  | .clrM4 => false
  | .eoiM4 => true
  | .litM5 _ => false
  | .clrM5 => false
  | .eoiM5 => true
  | .litM6 _ => false
  | .clrM6 => false
  | .eoiM6 => true
  | .litM7 _ => false
  | .clrM7 => false
  | .eoiM7 => true
  | .litM8 _ => false
  | .clrM8 => false
  | .eoiM8 => true
  | .decode => false
  | .deint => false
  | .clear => false

/-- The classes that emit a string, LIT, REF and KWK, which the width schedule counts (30_encoding.md R101). -/
def emitsString : Instr → Bool
  | .lit _ => true
  | .clr => false
  | .eoi => false
  | .ref _ => true
  | .kwk _ => true
  | .inv _ => false
  | .litM2 _ => true
  | .clrM2 => false
  | .eoiM2 => false
  | .litM3 _ => true
  | .clrM3 => false
  | .eoiM3 => false
  | .litM4 _ => true
  | .clrM4 => false
  | .eoiM4 => false
  | .litM5 _ => true
  | .clrM5 => false
  | .eoiM5 => false
  | .litM6 _ => true
  | .clrM6 => false
  | .eoiM6 => false
  | .litM7 _ => true
  | .clrM7 => false
  | .eoiM7 => false
  | .litM8 _ => true
  | .clrM8 => false
  | .eoiM8 => false
  | .decode => false
  | .deint => false
  | .clear => false

/-! ## Invariants -/

/-- The invariants of STATUS (10_state.md R24), and its reserved bits (R23). -/
def statusInv (w : BitVec 32) : Prop :=
  let f := statusFields w
  ¬(f.busy ∧ f.done) ∧ ¬(f.busy ∧ f.err) ∧ ¬(f.done ∧ f.err)
  ∧ ((f.eoi ∨ f.count ∨ f.trunc ∨ f.short) → f.done ∧ f.opk = false)
  ∧ (f.done ∧ f.opk = false → (f.eoi ∨ f.count ∨ f.trunc))
  ∧ ¬(f.eoi ∧ f.count) ∧ ¬(f.eoi ∧ f.trunc) ∧ ¬(f.count ∧ f.trunc)
  ∧ (f.count → f.short = false) ∧ (f.trunc → f.short)
  ∧ (f.noop → f.done ∧ f.opk)
  ∧ (f.err = true ↔ f.ecause ≠ 0) ∧ (f.err → f.opk = false) ∧ f.ecause.toNat ≤ 3
  ∧ w.toNat < 2 ^ 12

/-- The invariants of the working registers (10_state.md R36, R39), as they hold while a DECODE runs; in the last
conjunct, a learned entry exists only after a previous string does (41_lzw_codes.md R135). -/
def workInv (s : State) : Prop :=
  (2 ≤ s.mincs.toNat ∧ s.mincs.toNat ≤ 8)
  ∧ s.clearcode.toNat = 2 ^ s.mincs.toNat ∧ s.endcode.toNat = s.clearcode.toNat + 1
  ∧ s.mincs.toNat + 1 ≤ s.codesize.toNat ∧ s.codesize.toNat ≤ 12
  ∧ s.clearcode.toNat + 2 ≤ s.next.toNat ∧ s.next.toNat ≤ 4096
  ∧ (s.next.toNat < 2 ^ s.codesize.toNat ∨ (s.next.toNat = 4096 ∧ s.codesize.toNat = 12))
  ∧ (s.mincs.toNat + 1 < s.codesize.toNat → 2 ^ (s.codesize.toNat - 1) ≤ s.next.toNat)
  ∧ (s.prevV = true → s.prevCode.toNat < s.next.toNat ∧ s.prevCode.toNat ≠ s.clearcode.toNat
      ∧ s.prevCode.toNat ≠ s.endcode.toNat)
  ∧ (s.prevV = false → s.prev = 0)
  ∧ s.ocnt.toNat ≤ s.expect.toNat
  ∧ s.bitpos.toNat ≤ 8 * s.payload.length
  ∧ (s.prevV = false → s.next.toNat = s.clearcode.toNat + 2)

/-- The chain invariant of the code table (41_lzw_codes.md R131), and its literal entries (10_state.md R40). -/
def tableInv (s : State) : Prop :=
  (∀ k, k < s.clearcode.toNat → Store.read k s.tab = some ⟨none, BitVec.ofNat 8 k⟩)
  ∧ ∀ c, s.clearcode.toNat + 2 ≤ c → c < s.next.toNat →
      ∃ p b, Store.read c s.tab = some ⟨some p, b⟩ ∧ p.toNat < c ∧ p.toNat ≠ s.clearcode.toNat
        ∧ p.toNat ≠ s.endcode.toNat ∧ b.toNat < s.clearcode.toNat

/-- What a running DECODE was admitted with (43_host_commands.md R183): its accesses stay inside the buffers
(20_memory.md R67), and every register it uses is written (70_reset_and_hazards.md R235). -/
def admittedInv (s : State) : Prop :=
  s.ilen.toNat ≤ s.params.ibufCap.toNat ∧ s.expect.toNat ≤ s.params.obufCap.toNat
  ∧ ∀ r, r ∈ [RegName.mincs, .expect, .ilen, .ocnt, .bitpos, .codesize, .next, .prev, .clearcode, .endcode] →
      r ∉ s.unspec

/-- The memories keep their canonical form and no cell lies outside its buffer (20_memory.md R60, R67). -/
def memoryInv (s : State) : Prop :=
  s.ibuf.wf = true ∧ s.obuf.wf = true ∧ s.dbuf.wf = true ∧ Table.wf s.tab = true
  ∧ s.ibuf.within s.params.ibufCap.toNat = true ∧ s.obuf.within s.params.obufCap.toNat = true
  ∧ s.dbuf.within s.params.dbufCap.toNat = true ∧ (∀ e, e ∈ s.tab → e.1 < 4096)

/-- The invariant of the machine. A DEINT is one transition (DEDUCED, log entry 9), so the engine is busy only with a
DECODE: the conjunct `s.opk = false` is the model's, no rule of the spec;
and the host has not read BUSY = 0 since the command was accepted (20_memory.md R71 b). -/
def Inv (s : State) : Prop :=
  memoryInv s ∧ statusInv s.status ∧ s.config.toNat ≤ 1
  ∧ (s.busy = true → s.opk = false ∧ s.synced = false ∧ workInv s ∧ tableInv s ∧ admittedInv s)

/-! ## What a code leaves unchanged -/

/-- The registers and memories no LIT, REF or KWK with a previous string writes (41_lzw_codes.md R134 to R136):
everything but BITPOS, OBUF, OCNT, TAB, NEXT, CODESIZE and PREV. -/
def codeFrame (s t : State) : Prop :=
  t.status = s.status ∧ t.config = s.config ∧ t.mincs = s.mincs ∧ t.expect = s.expect ∧ t.ilen = s.ilen
  ∧ t.width = s.width ∧ t.height = s.height ∧ t.dlen = s.dlen ∧ t.clearcode = s.clearcode ∧ t.endcode = s.endcode
  ∧ t.ecode = s.ecode ∧ t.epos = s.epos ∧ t.unspec = s.unspec ∧ t.params = s.params ∧ t.script = s.script
  ∧ t.lastRead = s.lastRead ∧ t.synced = s.synced ∧ (∀ a, t.cell .ibuf a = s.cell .ibuf a)
  ∧ (∀ a, t.cell .dbuf a = s.cell .dbuf a)

/-- The effect of storing a string at OCNT, clipped at EXPECT (41_lzw_codes.md R129, R130): the cells, OCNT, and every
other cell of OBUF as before. -/
def stored (str : List Byte) (s t : State) : Prop :=
  t.ocnt.toNat = max s.ocnt.toNat (min (s.ocnt.toNat + str.length) s.expect.toNat)
  ∧ (∀ j b, str[j]? = some b → s.ocnt.toNat + j < s.expect.toNat → t.cell .obuf (s.ocnt.toNat + j) = b)
  ∧ (∀ a, (a < s.ocnt.toNat ∨ min (s.ocnt.toNat + str.length) s.expect.toNat ≤ a) → t.cell .obuf a = s.cell .obuf a)

/-- The effect of Add(PREV.CODE, b) where a previous string exists (41_lzw_codes.md R132, R133), and none where it does
not or the table is full. -/
def added (b : Byte) (s t : State) : Prop :=
  (s.prevV = true ∧ s.next.toNat < 4096 →
    Store.read s.next.toNat t.tab = some ⟨some s.prevCode, b⟩ ∧ t.next = s.next + 1
    ∧ t.codesize = (if s.next.toNat + 1 = 2 ^ s.codesize.toNat ∧ s.codesize.toNat < 12
        then s.codesize + 1 else s.codesize)
    ∧ ∀ c, c ≠ s.next.toNat → Store.read c t.tab = Store.read c s.tab)
  ∧ (s.prevV = false ∨ 4096 ≤ s.next.toNat → t.tab = s.tab ∧ t.next = s.next ∧ t.codesize = s.codesize)

/-- What a DEINT leaves unchanged (42_deinterlace.md R163): every register but STATUS and DLEN as the host reads it, IBUF,
OBUF and TAB. -/
def deintFrame (s t : State) : Prop :=
  (∀ n, n ≠ 1 → n ≠ 9 → readRegister t n = readRegister s n) ∧ (∀ a, t.cell .ibuf a = s.cell .ibuf a)
  ∧ (∀ a, t.cell .obuf a = s.cell .obuf a) ∧ t.tab = s.tab ∧ t.params = s.params ∧ t.script = s.script
  ∧ t.lastRead = s.lastRead

/-- BITPOS past the code (40_bit_cursor.md R114). -/
def State.pastCode (s : State) : BitVec 35 := s.bitpos + s.codesize.setWidth 35

/-- It is the engine's turn in s, which then steps from u: the host has no move left, lets the engine run (its move is taken
off the script), or polls while BUSY = 1 (its move stays). Log entries 1, 27. -/
def engineTurn (s u : State) : Prop :=
  (s.script = [] ∧ u = s) ∨ (∃ rest, s.script = .pass :: rest ∧ u = setScript rest s)
  ∨ ((∃ rest, s.script = .poll :: rest) ∧ s.busy = true ∧ u = s)

/-! ## Runs -/

/-- k steps in a row; none where one of them stops. -/
def runSteps : Nat → State → Option State
  | 0, s => some s
  | k + 1, s =>
    match step s with
    | .next t => runSteps k t
    | .fault _ => none
    | .refused _ => none

/-- Instructions executed one after the other; none where one of them stops. -/
def execAll : List Instr → State → Option State
  | [], s => some s
  | i :: is, s =>
    match exec i s with
    | .next t => execAll is t
    | .fault _ => none
    | .refused _ => none

/-- Two states that a running decode cannot tell apart (10_state.md R49): the same operands, payload and working
registers, the same present learned entries, the same output so far. -/
def sameDecode (s t : State) : Prop :=
  t.status = s.status ∧ t.mincs = s.mincs ∧ t.expect = s.expect ∧ t.payload = s.payload ∧ t.bitpos = s.bitpos
  ∧ t.codesize = s.codesize ∧ t.next = s.next ∧ t.prev = s.prev ∧ t.clearcode = s.clearcode ∧ t.endcode = s.endcode
  ∧ t.ocnt = s.ocnt ∧ t.ecode = s.ecode ∧ t.epos = s.epos
  ∧ (∀ a, a < s.ocnt.toNat → Store.read a t.obuf = Store.read a s.obuf)
  ∧ (∀ c, s.clearcode.toNat + 2 ≤ c → c < s.next.toNat → Store.read c t.tab = Store.read c s.tab)

/-! ## The decoder over strings (41_lzw_codes.md R142) -/

/-- D and prev of 41_lzw_codes.md R142: a partial map from codes to strings, and the previous string. -/
structure StringDecoder where
  dict : List (Nat × List Byte)
  prev : Option (List Byte)
deriving DecidableEq, Repr

/-- The initial D: each k below CLEARCODE maps to [k]; no previous string. -/
def stringInit (clear : Nat) : StringDecoder :=
  ⟨(List.range clear).map fun k => (k, [BitVec.ofNat 8 k]), none⟩

/-- Define D(NEXT), where NEXT = |dom D| + 2 is below 4096 (41_lzw_codes.md R142). -/
def stringAdd (str : List Byte) (d : StringDecoder) : StringDecoder :=
  if d.dict.length + 2 < 4096 then { d with dict := (d.dict.length + 2, str) :: d.dict } else d

/-- One code over strings (41_lzw_codes.md R142): what it emits, and D and prev after it; none where the code has no
string (END, INV, KWK without a previous string). -/
def stringCode (clear c : Nat) (d : StringDecoder) : Option (List Byte × StringDecoder) :=
  if c = clear then some ([], stringInit clear)
  else match Store.read c d.dict with
    | some str =>
      match d.prev with
      | some p => some (str, { stringAdd (p ++ str.take 1) d with prev := some str })
      | none => some (str, { d with prev := some str })
    | none =>
      match d.prev with
      | some p =>
        if c = d.dict.length + 2 then
          some (p ++ p.take 1, { stringAdd (p ++ p.take 1) d with prev := some (p ++ p.take 1) })
        else none
      | none => none

/-- The arena represents D and prev (41_lzw_codes.md R142): D(c) = Str(c), |dom D| + 2 = NEXT, prev = Str(PREV.CODE). -/
def represents (s : State) (d : StringDecoder) : Prop :=
  (∀ c : Code, Store.read c.toNat d.dict = s.str c) ∧ d.dict.length + 2 = s.next.toNat
  ∧ d.prev = (if s.prevV then s.str s.prevCode else none)

end Sys2Proof.Machine
end

