-- ==== Sys2Proof/Certificates/Slice0/Obligations.lean ====
section
/-! DEFINITION. The statements for the provers, in the order of OBLIGATIONS.json. Each docstring names the rule of spec/
it formalises. -/

open Sys2Proof Sys2Proof.Machine

/-! ## Bits, payload, classes -/

/-- 20_memory.md R61, R62: bit i of the code that starts at payload bit b is payload bit b + i, which is bit
(b + i) mod 8 of P[(b + i) div 8]; the value is below 2^w. R62 marks this packing as its own reading (log entry 16). -/
def Obligations.FetchedBitIsPayloadBit : Prop :=
  ∀ (p : List Byte) (b w : Nat),
    fetchValue p b w < 2 ^ w
    ∧ ∀ i, i < w → (fetchValue p b w).testBit i = (p.getD ((b + i) / 8) 0).getLsbD ((b + i) % 8)

/-- 40_bit_cursor.md R115: three payload bytes shifted and masked give the code. -/
def Obligations.FetchFromThreeBytes : Prop :=
  ∀ (p : List Byte) (b w : Nat), w ≤ 12 →
    fetchValue p b w
      = (((p.getD (b / 8) 0).toNat ||| (p.getD (b / 8 + 1) 0).toNat <<< 8 ||| (p.getD (b / 8 + 2) 0).toNat <<< 16)
          >>> (b % 8)) % 2 ^ w

/-- 40_bit_cursor.md R111: the payload is the ILEN bytes in bare mode; in CHAIN mode nothing is left at exit (a), the
terminator ends it at exit (b), a whole sub-block contributes its data, a cut one the bytes that exist, exit (c); it is
never longer than ILEN. -/
def Obligations.PayloadStripsFraming : Prop :=
  ∀ s : State,
    s.inputBytes.length = s.ilen.toNat ∧ s.payload.length ≤ s.ilen.toNat
    ∧ (∀ a, a < s.ilen.toNat → s.inputBytes[a]? = some (s.cell .ibuf a))
    ∧ (s.chain = false → s.payload = s.inputBytes)
    ∧ (s.chain = true → s.inputBytes = [] → s.payload = [])
    ∧ (∀ rest, s.chain = true → s.inputBytes = 0#8 :: rest → s.payload = [])
    ∧ (∀ n data rest, s.chain = true → n ≠ 0#8 → data.length = n.toNat → s.inputBytes = n :: (data ++ rest) →
        s.payload = data ++ stripChain (rest.length + 1) rest)
    ∧ (∀ n data, s.chain = true → n ≠ 0#8 → data.length < n.toNat → s.inputBytes = n :: data → s.payload = data)

/-- 20_memory.md R68, 30_encoding.md R99, 40_bit_cursor.md R111: the payload of a chain of sub-blocks of any sizes from 1 to
255 is their data, whatever follows the terminator; the cut the model's assembler makes of a payload (log entry 31) is such
a cut of it. -/
def Obligations.FramedPayloadIsRecovered : Prop :=
  (∀ (s : State) (bs : List (List Byte)) (junk : List Byte), s.chain = true → legalCut bs = true →
    s.inputBytes = frameCut bs ++ junk → s.payload = bs.flatten)
  ∧ ∀ p : List Byte, legalCut (frameBlocks p.length p) = true ∧ (frameBlocks p.length p).flatten = p

/-- 40_bit_cursor.md R111: a chain of sub-blocks of any sizes that ILEN cuts anywhere gives an initial segment of its
payload. -/
def Obligations.CutChainGivesInitialSegment : Prop :=
  ∀ (s : State) (bs : List (List Byte)) (k : Nat), s.chain = true → legalCut bs = true →
    s.inputBytes = (frameCut bs).take k → ∃ j, s.payload = bs.flatten.take j

/-- 30_encoding.md R93: the class of a fetched value, by comparison with CLEARCODE, ENDCODE and NEXT. -/
def Obligations.ClassOfFetchedValue : Prop :=
  ∀ (x : CodeContext) (c : Code), x.ordered = true →
    (c.toNat < x.clearcode.toNat → literalOf (decodeCode x c) = some c)
    ∧ (c.toNat = x.clearcode.toNat → isClear (decodeCode x c) = true)
    ∧ (c.toNat = x.endcode.toNat → isEnd (decodeCode x c) = true)
    ∧ (x.clearcode.toNat + 2 ≤ c.toNat → c.toNat < x.next.toNat → decodeCode x c = .ref c)
    ∧ (c.toNat = x.next.toNat → decodeCode x c = .kwk c)
    ∧ (x.next.toNat < c.toNat → decodeCode x c = .inv c)

/-- 30_encoding.md R94 (a), 41_lzw_codes.md R140: with a full table neither KWK nor INV can be fetched. -/
def Obligations.FullTableNeverInvalid : Prop :=
  ∀ (x : CodeContext) (c d : Code), x.ordered = true → x.next.toNat = 4096 →
    decodeCode x c ≠ .kwk d ∧ decodeCode x c ≠ .inv d

/-- 30_encoding.md R90, R93, R95, R97, R99: an instruction's code word, placed between any other bits and packed to bytes,
decodes to that instruction; a command's CTRL value decodes to that command. That a literal, a clear or an end code under a
legal MINCS is the row of that MINCS (LIT_M2 to END_M8), and LIT, CLR or END in the other contexts only, is the model's
reading, DEDUCED, log entry 11 (`inClass`, `exactRow`). -/
def Obligations.DecodeOfEncodeIsIdentity : Prop :=
  (∀ (x : CodeContext) (i : Instr) (bits pre post : List Bool),
    x.ordered = true → i.inClass x = true → (∀ c, encodeCode x i = some c → x.holds c = true) →
    encode x i = .code bits →
    decodeAt x (packBits (pre ++ bits ++ post)) pre.length = .ok i)
  ∧ ∀ (x : CodeContext) (i : Instr) (v : BitVec 32), encode x i = .ctrl v → decodeCtrl v = .ok i

/-- 30_encoding.md R93: no bit of a fetched value is lost by its classification. -/
def Obligations.EncodeOfDecodeIsIdentity : Prop :=
  ∀ (x : CodeContext) (c : Code), x.ordered = true → encodeCode x (decodeCode x c) = some c

/-- 30_encoding.md R97, 43_host_commands.md R187: exactly three CTRL values are commands. -/
def Obligations.OnlyThreeCommandValues : Prop :=
  ∀ (v : BitVec 32) (i : Instr),
    decodeCtrl v = .ok i ↔ (v = 1#32 ∧ i = .decode) ∨ (v = 2#32 ∧ i = .deint) ∨ (v = 4#32 ∧ i = .clear)

/-- 40_bit_cursor.md R118, 30_encoding.md R95, R97: words written out from the spec decode to what they stand for: the six
codes of the payload 44 02 05 with MINCS = 2, and the three commands. R118 says CLR, LIT and END; that the rows of MINCS = 2
(CLR_M2, LIT_M2, END_M2) are answered for them is the model's reading, DEDUCED, log entry 11. -/
def Obligations.SampleWordsDecode : Prop :=
  let p : List Byte := [0x44#8, 0x02#8, 0x05#8]
  let x3 : CodeContext := ⟨2#8, 3#4, 6#13, 4#9, 5#9⟩
  let x4 : CodeContext := ⟨2#8, 4#4, 8#13, 4#9, 5#9⟩
  decodeAt x3 p 0 = .ok .clrM2 ∧ decodeAt x3 p 3 = .ok (.litM2 0#2) ∧ decodeAt x3 p 6 = .ok (.litM2 1#2)
  ∧ decodeAt x4 p 12 = .ok (.litM2 0#2) ∧ decodeAt x4 p 16 = .ok .eoiM2 ∧ decodeAt x4 p 21 = .rejected .outOfBits
  ∧ decodeCtrl 0x00000001#32 = .ok .decode ∧ decodeCtrl 0x00000002#32 = .ok .deint
  ∧ decodeCtrl 0x00000004#32 = .ok .clear

/-! ## The step -/

/-- A step runs the decoded instruction: on the engine's turn the code at the cursor of a running DECODE (41_lzw_codes.md
R126), with no host move left, when the host lets the engine run and while it polls; when the host's next move is an
action, the step is that action, and a write of a command's value to CTRL is that command (43_host_commands.md R182).
Nothing is added around exec but that the host's move is taken off its script, a poll only once BUSY = 0: the model's form
of the host (log entries 1, 27). -/
def Obligations.StepRunsDecodedInstruction : Prop :=
  (∀ (s u : State) (i : Instr), engineTurn s u → s.busy = true → s.opk = false → s.ocnt.toNat < s.expect.toNat →
    decodeAt s.context s.payload s.bitpos.toNat = .ok i → step s = exec i u)
  ∧ (∀ (s : State) (a : HostAction) (rest : List HostMove), s.script = .act a :: rest →
    step s = hostAct a { s with script := rest })
  ∧ ∀ (s : State) (i : Instr) (v : Nat) (rest : List HostMove), s.script = .act (.writeReg 0 v) :: rest →
    decodeCtrl (BitVec.ofNat 32 v) = .ok i → step s = exec i { s with script := rest }

/-- 43_host_commands.md R182: the engine does nothing of its own accord, on any turn of its own; R189: a poll that finds BUSY = 0
reads STATUS and is over (the model's form of a poll: log entries 2, 27, 32). -/
def Obligations.EngineAtRestDoesNothing : Prop :=
  (∀ s u : State, s.busy = false → engineTurn s u → step s = .next u)
  ∧ ∀ (s : State) (rest : List HostMove), s.busy = false → s.script = .poll :: rest →
    step s = .next { s with script := rest, lastRead := some (s.status.setWidth 35), synced := true }

/-- 41_lzw_codes.md R126, 60_exceptions.md R208, R210: on every turn of the engine the count test comes first; no bit is
read (the turns are the model's form of the host, log entries 1, 27). -/
def Obligations.CountHaltsFirst : Prop :=
  ∀ s u : State, engineTurn s u → s.busy = true → s.opk = false → s.expect.toNat ≤ s.ocnt.toNat →
    step s = .next { u with status := 0x00000012#32 }

/-- 40_bit_cursor.md R116: on every turn of the engine with fewer than CODESIZE bits left no bit is consumed, and the decode
halts with TRUNC and SHORT (the turns are the model's form of the host, log entries 1, 27). -/
def Obligations.TooFewBitsHaltTrunc : Prop :=
  ∀ s u : State, engineTurn s u → s.busy = true → s.opk = false → s.ocnt.toNat < s.expect.toNat →
    8 * s.payload.length - s.bitpos.toNat < s.codesize.toNat →
    step s = .next { u with status := 0x00000062#32 }

/-- 60_exceptions.md R207, R210: the STATUS words of every halt and of every FormatError. -/
def Obligations.StatusWordsOfHalts : Prop :=
  endWord true = 0x0000004A#32 ∧ endWord false = 0x0000000A#32 ∧ countWord = 0x00000012#32
  ∧ truncWord = 0x00000062#32 ∧ deintWord false = 0x00000102#32 ∧ deintWord true = 0x00000182#32
  ∧ errorWord 1 = 0x00000204#32 ∧ errorWord 2 = 0x00000404#32 ∧ errorWord 3 = 0x00000604#32

/-! ## The codes -/

/-- 41_lzw_codes.md R134 with R130, R132, R133, for LIT and LIT_M2 to LIT_M8: BITPOS past the code, the index stored,
(PREV.CODE, k) added where a previous string exists, PREV = (1, k), nothing else changed. -/
def Obligations.LiteralCodeEffect : Prop :=
  ∀ (i : Instr) (k : Code) (s : State), literalOf i = some k →
    ∃ t, exec i s = .next t ∧ t.bitpos = s.pastCode ∧ stored [k.setWidth 8] s t ∧ added (k.setWidth 8) s t
      ∧ t.prevV = true ∧ t.prevCode = k ∧ codeFrame s t

/-- 41_lzw_codes.md R135 with R130, R132, R133: REF c whose string is b :: rest. -/
def Obligations.ReferenceCodeEffect : Prop :=
  ∀ (c : Code) (s : State) (b : Byte) (rest : List Byte), s.str c = some (b :: rest) →
    ∃ t, exec (.ref c) s = .next t ∧ t.bitpos = s.pastCode ∧ stored (b :: rest) s t ∧ added b s t
      ∧ t.prevV = true ∧ t.prevCode = c ∧ codeFrame s t

/-- 41_lzw_codes.md R136 with R130, R132, R133, 60_exceptions.md R206, R207: KWK after a previous string b :: rest emits it
with b appended, which is the string of the entry it adds; without a previous string it is FormatError cause 1, and only
BITPOS, ECODE, EPOS and STATUS change. -/
def Obligations.SelfReferenceEffect : Prop :=
  (∀ (c : Code) (s : State) (b : Byte) (rest : List Byte), c.toNat = s.next.toNat → s.prevV = true →
    s.str s.prevCode = some (b :: rest) →
    ∃ t, exec (.kwk c) s = .next t ∧ t.bitpos = s.pastCode ∧ stored (b :: rest ++ [b]) s t ∧ added b s t
      ∧ (s.clearcode.toNat + 2 ≤ s.next.toNat → t.str c = some (b :: rest ++ [b]))
      ∧ t.prevV = true ∧ t.prevCode = c ∧ codeFrame s t)
  ∧ ∀ (c : Code) (s : State), s.prevV = false →
    exec (.kwk c) s
      = .next { s with bitpos := s.pastCode, ecode := c, epos := s.bitpos, status := 0x00000204#32 }

/-- 41_lzw_codes.md R137, 60_exceptions.md R210, for END and END_M2 to END_M8: BITPOS past the code, halt END, SHORT when
OCNT < EXPECT; nothing else changes. -/
def Obligations.EndCodeEffect : Prop :=
  ∀ (i : Instr) (s : State), isEnd i = true →
    exec i s = .next { s with
      bitpos := s.pastCode,
      status := if s.ocnt.toNat < s.expect.toNat then 0x0000004A#32 else 0x0000000A#32 }

/-- 41_lzw_codes.md R138, 10_state.md R41, for CLR and CLR_M2 to CLR_M8: width and table back to their initial state, no
previous string, no learned entry present, no index emitted, nothing else changed. -/
def Obligations.ClearCodeEffect : Prop :=
  ∀ (i : Instr) (s : State), isClear i = true →
    ∃ t, exec i s = .next t ∧ t.bitpos = s.pastCode ∧ t.codesize = BitVec.ofNat 4 (s.mincs.toNat + 1)
      ∧ t.next.toNat = s.clearcode.toNat + 2 ∧ t.prev = 0
      ∧ (∀ k, k < s.clearcode.toNat → Store.read k t.tab = some ⟨none, BitVec.ofNat 8 k⟩)
      ∧ (∀ k, s.clearcode.toNat ≤ k → Store.read k t.tab = Store.read k s.tab)
      ∧ (∀ c : Code, s.clearcode.toNat ≤ c.toNat → t.str c = none)
      ∧ t.ocnt = s.ocnt ∧ (∀ a, t.cell .obuf a = s.cell .obuf a) ∧ codeFrame s t

/-- 41_lzw_codes.md R139, 60_exceptions.md R202, R206, R207: INV is FormatError cause 2; only BITPOS, ECODE, EPOS and
STATUS change. -/
def Obligations.InvalidCodeEffect : Prop :=
  ∀ (c : Code) (s : State),
    exec (.inv c) s
      = .next { s with bitpos := s.pastCode, ecode := c, epos := s.bitpos, status := 0x00000404#32 }

/-- 30_encoding.md R101: from a table reset, after j ≥ 1 steps of class LIT, REF or KWK in any order, of which the first is a
LIT form (no other is possible there: 41_lzw_codes.md R135, R136), NEXT is CLEARCODE + 2 + (j - 1), capped at 4096, and the
width is that of NEXT, at least MINCS + 1 and at most 12; a stream of LIT forms alone always runs. -/
def Obligations.WidthSchedule : Prop :=
  ∀ (s : State) (i : Instr) (is : List Instr), 2 ≤ s.mincs.toNat → s.mincs.toNat ≤ 8 →
    s.clearcode.toNat = 2 ^ s.mincs.toNat → s.next.toNat = s.clearcode.toNat + 2 →
    s.codesize.toNat = s.mincs.toNat + 1 → s.prevV = false →
    (literalOf i).isSome = true → (∀ j, j ∈ is → emitsString j = true) →
    (∀ t, execAll (i :: is) s = some t →
      t.next.toNat = min (s.clearcode.toNat + 2 + is.length) 4096
      ∧ t.codesize.toNat = if t.next.toNat = 4096 then 12 else max (s.mincs.toNat + 1) (Nat.log2 t.next.toNat + 1))
    ∧ ((∀ j, j ∈ is → (literalOf j).isSome = true) → ∃ t, execAll (i :: is) s = some t)

/-! ## The commands -/

/-- 43_host_commands.md R184, 41_lzw_codes.md R125: an accepted DECODE with legal MINCS starts busy, with every register
DecodeInit names at its initial value, the literal entries written and no learned entry present; the operands, WIDTH,
HEIGHT, DLEN, the buffers and the other entries stay. Every operand has been written (70_reset_and_hazards.md R235). -/
def Obligations.DecodeCommandStarts : Prop :=
  ∀ s : State, s.busy = false → s.written decodeOperands = true → 2 ≤ s.mincs.toNat → s.mincs.toNat ≤ 8 →
    s.ilen.toNat ≤ s.params.ibufCap.toNat → s.expect.toNat ≤ s.params.obufCap.toNat →
    ∃ t, exec .decode s = .next t ∧ t.status = 0x00000001#32 ∧ t.synced = false
      ∧ t.mincs = s.mincs ∧ t.expect = s.expect ∧ t.ilen = s.ilen
      ∧ t.clearcode.toNat = 2 ^ t.mincs.toNat ∧ t.endcode.toNat = 2 ^ t.mincs.toNat + 1
      ∧ t.codesize.toNat = t.mincs.toNat + 1 ∧ t.next.toNat = 2 ^ t.mincs.toNat + 2 ∧ t.prev = 0
      ∧ t.bitpos = 0 ∧ t.ocnt = 0 ∧ t.ecode = 0 ∧ t.epos = 0
      ∧ (∀ k, k < 2 ^ t.mincs.toNat → Store.read k t.tab = some ⟨none, BitVec.ofNat 8 k⟩)
      ∧ (∀ k, 2 ^ t.mincs.toNat ≤ k → Store.read k t.tab = Store.read k s.tab)
      ∧ (∀ c : Code, 2 ^ t.mincs.toNat ≤ c.toNat → t.str c = none)
      ∧ (∀ n, n ∈ [2, 3, 4, 5, 6, 7, 9] → readRegister t n = readRegister s n)
      ∧ (∀ sp a, t.cell sp a = s.cell sp a) ∧ t.params = s.params ∧ t.script = s.script

/-- 43_host_commands.md R184, 10_state.md R27, 60_exceptions.md R202: MINCS outside 2 to 8 is FormatError cause 3 before any
initialisation; ECODE and EPOS are 0, every other register, TAB and every buffer keep their values. Every operand
has been written (70_reset_and_hazards.md R235). -/
def Obligations.DecodeCommandBadMincs : Prop :=
  ∀ s : State, s.busy = false → s.written decodeOperands = true → (s.mincs.toNat < 2 ∨ 8 < s.mincs.toNat) →
    s.ilen.toNat ≤ s.params.ibufCap.toNat → s.expect.toNat ≤ s.params.obufCap.toNat →
    ∃ t, exec .decode s = .next t ∧ t.status = 0x00000604#32 ∧ t.ecode = 0 ∧ t.epos = 0 ∧ t.synced = false
      ∧ (∀ n, n ≠ 1 → n ≠ 16 → n ≠ 17 → readRegister t n = readRegister s n)
      ∧ (∀ sp a, t.cell sp a = s.cell sp a) ∧ t.tab = s.tab ∧ t.params = s.params ∧ t.script = s.script

/-- 70_reset_and_hazards.md R235: a command whose operand register nothing has written runs with an unspecified value of it:
it does what it does in the state in which that register has been written with the free value a read of it gives, and that
state is the same to a host. Which value it is, no statement says (93_implementation_defined.md U2); that the register
holds it from then on is the model's (DESIGN CHOICE, log entry 5). -/
def Obligations.CommandsOnUnwrittenOperandsRun : Prop :=
  ∀ s : State,
    (s.busy = false → exec .decode s = exec .decode (settleDecode s) ∧ exec .deint s = exec .deint (settleDeint s))
    ∧ (settleDecode s).written decodeOperands = true ∧ (settleDeint s).written deintOperands = true
    ∧ ∀ n, readRegister (settleDecode s) n = readRegister s n ∧ readRegister (settleDeint s) n = readRegister s n

/-- 43_host_commands.md R183: a command whose operands exceed a capacity is refused: a refusal of the model (log entry
12). Every operand has been written (70_reset_and_hazards.md R235). -/
def Obligations.CommandsBeyondCapacityRefused : Prop :=
  ∀ s : State, s.busy = false →
    let n := s.ocnt.toNat
    let w := s.width.toNat
    let h := s.height.toNat
    (s.written decodeOperands = true →
      s.params.ibufCap.toNat < s.ilen.toNat ∨ s.params.obufCap.toNat < s.expect.toNat →
      exec .decode s = .refused .commandBeyondCapacity)
    ∧ (s.written deintOperands = true → s.params.obufCap.toNat < n → exec .deint s = .refused .commandBeyondCapacity)
    ∧ (s.written deintOperands = true → h ≤ 1 ∨ n < w ∨ w = 0 → s.params.dbufCap.toNat < n →
        exec .deint s = .refused .commandBeyondCapacity)
    ∧ (s.written deintOperands = true → ¬(h ≤ 1 ∨ n < w ∨ w = 0) → s.params.dbufCap.toNat < w * h →
        exec .deint s = .refused .commandBeyondCapacity)

/-- 42_deinterlace.md R162, 43_host_commands.md R185: the no-op path copies OBUF[0 .. OCNT-1] to DBUF, every other cell of
DBUF is unwritten, DLEN = OCNT, STATUS = DONE | NOOP | OPK. Operands written; one transition, log entry 9. -/
def Obligations.DeintNoopCopies : Prop :=
  ∀ s : State,
    let n := s.ocnt.toNat
    let w := s.width.toNat
    let h := s.height.toNat
    s.busy = false → s.written deintOperands = true → (h ≤ 1 ∨ n < w ∨ w = 0) →
    n ≤ s.params.obufCap.toNat → n ≤ s.params.dbufCap.toNat →
    ∃ t, exec .deint s = .next t ∧ t.status = 0x00000182#32 ∧ readRegister t 9 = BitVec.ofNat 35 n
      ∧ (∀ i, i < n → Store.read i t.dbuf = some (s.cell .obuf i))
      ∧ (∀ a, n ≤ a → Store.read a t.dbuf = none) ∧ deintFrame s t

/-- 42_deinterlace.md R163, R165, R166, 43_host_commands.md R185: the reordering path. Index i < min(n, w*h) goes to cell
RowMap(h, i div w)*w + i mod w; the cells that received nothing are unwritten; DLEN = w*h; STATUS = DONE | OPK. Operands
written; one transition, log entry 9. -/
def Obligations.DeintReorders : Prop :=
  ∀ s : State,
    let n := s.ocnt.toNat
    let w := s.width.toNat
    let h := s.height.toNat
    s.busy = false → s.written deintOperands = true → 2 ≤ h → w ≤ n → 1 ≤ w →
    n ≤ s.params.obufCap.toNat → w * h ≤ s.params.dbufCap.toNat →
    ∃ t, exec .deint s = .next t ∧ t.status = 0x00000102#32 ∧ readRegister t 9 = BitVec.ofNat 35 (w * h)
      ∧ (∀ i, i < min n (w * h) → Store.read (rowMap h (i / w) * w + i % w) t.dbuf = some (s.cell .obuf i))
      ∧ (∀ d x, d < h → x < w → n ≤ srcRow h d * w + x → Store.read (d * w + x) t.dbuf = none)
      ∧ (∀ a, w * h ≤ a → Store.read a t.dbuf = none) ∧ deintFrame s t

/-- 42_deinterlace.md R164: complete input is permuted by whole rows. Operands written; one transition,
log entry 9. -/
def Obligations.DeintCompleteImage : Prop :=
  ∀ s : State,
    let n := s.ocnt.toNat
    let w := s.width.toNat
    let h := s.height.toNat
    s.busy = false → s.written deintOperands = true → 2 ≤ h → 1 ≤ w → n = w * h →
    n ≤ s.params.obufCap.toNat → n ≤ s.params.dbufCap.toNat →
    ∃ t, exec .deint s = .next t
      ∧ ∀ d x, d < h → x < w → t.cell .dbuf (d * w + x) = s.cell .obuf (srcRow h d * w + x)

/-- 42_deinterlace.md R161: RowMap(h, ·) is a bijection of 0 .. h-1 with inverse SrcRow(h, ·), and it lists the rows pass by
pass: those divisible by 8, those 4 modulo 8, those 2 modulo 4, the odd ones, each in ascending order. -/
def Obligations.RowMapIsBijection : Prop :=
  ∀ h : Nat,
    (∀ s, s < h → rowMap h s < h ∧ srcRow h (rowMap h s) = s)
    ∧ (∀ d, d < h → srcRow h d < h ∧ rowMap h (srcRow h d) = d)
    ∧ (h + 7) / 8 + (h + 3) / 8 + (h + 1) / 4 + h / 2 = h
    ∧ (∀ d e, d % 8 = 0 → e % 8 = 0 → d < e → srcRow h d < srcRow h e)
    ∧ (∀ d e, d < h → d % 8 = 0 → e % 8 = 4 → srcRow h d < srcRow h e)
    ∧ (∀ d e, d % 8 = 4 → e % 8 = 4 → d < e → srcRow h d < srcRow h e)
    ∧ (∀ d e, d < h → d % 8 = 4 → e % 4 = 2 → srcRow h d < srcRow h e)
    ∧ (∀ d e, d % 4 = 2 → e % 4 = 2 → d < e → srcRow h d < srcRow h e)
    ∧ (∀ d e, d < h → d % 4 = 2 → e % 2 = 1 → srcRow h d < srcRow h e)
    ∧ (∀ d e, d % 2 = 1 → e % 2 = 1 → d < e → srcRow h d < srcRow h e)

/-- 43_host_commands.md R186: CLEAR sets STATUS to 0 and changes nothing else. -/
def Obligations.ClearCommandEffect : Prop :=
  ∀ s : State, s.busy = false → exec .clear s = .next { s with status := 0x00000000#32 }

/-- 43_host_commands.md R187, R181: a reserved CTRL value, and any command while busy, has no effect at all. -/
def Obligations.MistimedCommandsHaveNoEffect : Prop :=
  (∀ (s : State) (v : Nat), v % 2 ^ 32 ≠ 1 → v % 2 ^ 32 ≠ 2 → v % 2 ^ 32 ≠ 4 → hostAct (.writeReg 0 v) s = .next s)
  ∧ ∀ (s : State) (v : Nat), s.busy = true → hostAct (.writeReg 0 v) s = .next s

/-! ## The host -/

/-- 43_host_commands.md R181: while busy STATUS can be read, every write is ignored, and every other read returns some value
of the width of what is read (10_state.md R45) and changes nothing but what the read returned and the count of free values
drawn (log entries 2, 8). -/
def Obligations.BusyRule : Prop :=
  ∀ s : State, s.busy = true →
    hostAct (.readReg 1) s = .next { s with lastRead := some (s.status.setWidth 35) }
    ∧ (∀ n v, hostAct (.writeReg n v) s = .next s) ∧ (∀ sp a v, hostAct (.writeBuf sp a v) s = .next s)
    ∧ (∀ n, n ≠ 1 → ∃ v : BitVec 35, v.toNat < 2 ^ registerWidth n ∧
      hostAct (.readReg n) s = .next { s with lastRead := some v, draws := s.draws + 1 })
    ∧ ∀ sp a, ∃ v : BitVec 35, v.toNat < 2 ^ 8 ∧
      hostAct (.readBuf sp a) s = .next { s with lastRead := some v, draws := s.draws + 1 }

/-- 43_host_commands.md R188, 10_state.md R21: a register write while not busy stores the value cut to the register's width,
is ignored by read-only and absent registers, and changes no other register and no memory; CTRL and absent registers read 0.
An unspecified register reads as the model's free value (log entry 4). -/
def Obligations.HostWritesRegister : Prop :=
  ∀ (s : State) (n v : Nat), s.busy = false → n ≠ 0 →
    readRegister s 0 = 0 ∧ (18 ≤ n → readRegister s n = 0)
    ∧ ∃ t, hostAct (.writeReg n v) s = .next t
      ∧ readRegister t n =
        (if n = 2 then BitVec.ofNat 35 (v % 2) else if n = 3 then BitVec.ofNat 35 (v % 2 ^ 8)
          else if n = 4 ∨ n = 5 ∨ n = 8 then BitVec.ofNat 35 (v % 2 ^ 32)
          else if n = 6 ∨ n = 7 then BitVec.ofNat 35 (v % 2 ^ 16) else readRegister s n)
      ∧ (∀ k, k ≠ n → readRegister t k = readRegister s k) ∧ (∀ sp a, t.cell sp a = s.cell sp a) ∧ t.tab = s.tab

/-- 43_host_commands.md R188, 20_memory.md R60, R71, 70_reset_and_hazards.md R241 H-b: a buffer write while not busy stores
the value's low byte in IBUF or OBUF and is ignored by DBUF; nothing else changes; a read returns the cell, of OBUF and
DBUF once the host has read BUSY = 0, before that some byte; at or above the capacity both are refused, a refusal of the
model (log entries 2, 8, 13, 32). -/
def Obligations.HostBufferAccess : Prop :=
  ∀ (s : State) (sp : Space) (a v : Nat), s.busy = false →
    (a < s.capacity sp →
      (sp = .ibuf ∨ s.synced = true →
        hostAct (.readBuf sp a) s = .next { s with lastRead := some ((s.cell sp a).setWidth 35) })
      ∧ (sp ≠ .ibuf → s.synced = false → ∃ u : BitVec 35, u.toNat < 2 ^ 8 ∧
        hostAct (.readBuf sp a) s = .next { s with lastRead := some u, draws := s.draws + 1 })
      ∧ ∃ t, hostAct (.writeBuf sp a v) s = .next t
        ∧ (sp ≠ .dbuf → t.cell sp a = BitVec.ofNat 8 v) ∧ (sp = .dbuf → t = s)
        ∧ (∀ sp' a', ¬(sp' = sp ∧ a' = a) → t.cell sp' a' = s.cell sp' a')
        ∧ (∀ n, readRegister t n = readRegister s n) ∧ t.tab = s.tab)
    ∧ (s.capacity sp ≤ a → hostAct (.readBuf sp a) s = .refused .bufferBeyondCapacity
      ∧ hostAct (.writeBuf sp a v) s = .refused .bufferBeyondCapacity)

/-- 20_memory.md R66, R71, 10_state.md R21, R45, 70_reset_and_hazards.md R241 H-b: a host read while not busy returns a value
of the register's width and changes nothing of the block; the value is the register's, of a result register (numbers 8 to
17) once the host has read BUSY = 0, before that some value; a read of STATUS is what makes it so (log entries 2, 8, 32;
log entry 4: an unspecified register). -/
def Obligations.HostReadsChangeNothing : Prop :=
  ∀ (s : State) (n : Nat), s.busy = false →
    (n ≠ 1 → n < 8 ∨ 17 < n ∨ s.synced = true →
      hostAct (.readReg n) s = .next { s with lastRead := some (readRegister s n) })
    ∧ (8 ≤ n → n ≤ 17 → s.synced = false → ∃ v : BitVec 35, v.toNat < 2 ^ registerWidth n ∧
      hostAct (.readReg n) s = .next { s with lastRead := some v, draws := s.draws + 1 })
    ∧ hostAct (.readReg 1) s = .next { s with lastRead := some (s.status.setWidth 35), synced := true }
    ∧ (readRegister s n).toNat < 2 ^ registerWidth n

/-- 20_memory.md R71 (b), 70_reset_and_hazards.md R241 H-b: only an accepted DECODE or DEINT makes the results unreadable
again; no other instruction, no step of the engine and no host write changes whether the host has read BUSY = 0, and a
halt does not make the results readable by itself (log entry 32). -/
def Obligations.ResultsAwaitAStatusRead : Prop :=
  (∀ (i : Instr) (s t : State), exec i s = .next t →
    t.synced = if (i = .decode ∨ i = .deint) ∧ s.busy = false then false else s.synced)
  ∧ (∀ s t : State, engineStep s = .next t → t.synced = s.synced)
  ∧ (∀ (s t : State) (n v : Nat), n ≠ 0 → hostAct (.writeReg n v) s = .next t → t.synced = s.synced)
  ∧ ∀ (s t : State) (sp : Space) (a v : Nat), hostAct (.writeBuf sp a v) s = .next t → t.synced = s.synced

/-! ## Reset -/

/-- 10_state.md R48: what hardware reset leaves; every register the rule calls unspecified is marked so, the model's
form of it (log entry 4). -/
def Obligations.ResetState : Prop :=
  State.reset.status = 0 ∧ State.reset.config = 0 ∧ State.reset.ecode = 0 ∧ State.reset.epos = 0
  ∧ (∀ r : RegName, r ∈ State.reset.unspec)
  ∧ State.reset.ibuf = [] ∧ State.reset.obuf = [] ∧ State.reset.dbuf = [] ∧ State.reset.tab = []
  ∧ readRegister State.reset 0 = 0

/-- 70_reset_and_hazards.md R230, R231: hardware reset at any time, a command running or not, gives the state of reset; only
the parameters, the host's own fields and the indexes of the free values are not those of `State.reset` (log entries 3, 7). -/
def Obligations.HardwareResetAtAnyTime : Prop :=
  ∀ s : State, hostAct .reset s = .next { State.reset with
    params := s.params, script := s.script, lastRead := s.lastRead, epoch := s.epoch + 1,
    dbufEpoch := s.dbufEpoch + 1, draws := s.draws }

/-! ## Whole-machine rules -/

/-- The invariant (10_state.md R24, R39, 41_lzw_codes.md R131, 20_memory.md R67) holds after reset. Its conjunct "BUSY = 1
implies OPK = 0" is the model's (DEDUCED, log entry 9). -/
def Obligations.InvariantAtReset : Prop := Inv State.reset

/-- 10_state.md R24, R39, 41_lzw_codes.md R131, 20_memory.md R67: every step keeps the invariant. Its conjunct "BUSY = 1
implies OPK = 0" is no rule of the spec (R182 sets both for a DEINT): it holds because a DEINT is one transition, DEDUCED,
log entry 9. -/
def Obligations.EveryStepKeepsInvariant : Prop :=
  ∀ s t : State, Inv s → step s = .next t → Inv t

/-- 10_state.md R24: the STATUS invariants are kept by every step from every state that has them. -/
def Obligations.StatusStaysLegal : Prop :=
  ∀ s t : State, statusInv s.status → step s = .next t → statusInv t.status

/-- The canonical form of every memory is kept by every step from every state that has it (10_state.md R40, R42 to R44). -/
def Obligations.MemoryStaysCanonical : Prop :=
  ∀ s t : State, s.ibuf.wf = true → s.obuf.wf = true → s.dbuf.wf = true → Table.wf s.tab = true → step s = .next t →
    t.ibuf.wf = true ∧ t.obuf.wf = true ∧ t.dbuf.wf = true ∧ Table.wf t.tab = true

/-- 41_lzw_codes.md R131: in a running decode every present code has a string; a learned one has 2 to c - CLEARCODE indices,
and every index is below CLEARCODE. -/
def Obligations.StringsAreBounded : Prop :=
  ∀ (s : State) (c : Code), Inv s → s.busy = true → s.present c.toNat = true →
    ∃ str, s.str c = some str ∧ (∀ b, b ∈ str → b.toNat < s.clearcode.toNat)
      ∧ (c.toNat < s.clearcode.toNat → str = [c.setWidth 8])
      ∧ (s.clearcode.toNat + 2 ≤ c.toNat → 2 ≤ str.length ∧ str.length ≤ c.toNat - s.clearcode.toNat)

/-- 41_lzw_codes.md R127: from every state of the invariant the engine's step answers a next state, again of the invariant,
whose conjunct "BUSY = 1 implies OPK = 0" is the model's (DEDUCED, log entry 9). -/
def Obligations.EngineStepIsTotal : Prop :=
  ∀ s : State, Inv s → ∃ t, engineStep s = .next t ∧ Inv t

/-- 70_reset_and_hazards.md R244, 40_bit_cursor.md R117: a running DECODE halts within (bits left) div (MINCS + 1) codes and
one halting step, in one of the halts of 60_exceptions.md R209. -/
def Obligations.EveryDecodeHalts : Prop :=
  ∀ s : State, Inv s → s.busy = true → s.script = [] →
    ∃ k t, k ≤ (8 * s.payload.length - s.bitpos.toNat) / (s.mincs.toNat + 1) + 1
      ∧ runSteps k s = some t ∧ t.busy = false
      ∧ t.status ∈ [0x0000004A#32, 0x0000000A#32, 0x00000012#32, 0x00000062#32, 0x00000204#32, 0x00000404#32]

/-- 20_memory.md R60, R74: no step of the engine writes IBUF, CONFIG or an operand register. -/
def Obligations.EngineNeverWritesItsInput : Prop :=
  ∀ s t : State, engineStep s = .next t →
    (∀ a, t.cell .ibuf a = s.cell .ibuf a) ∧ t.config = s.config ∧ t.mincs = s.mincs ∧ t.expect = s.expect
    ∧ t.ilen = s.ilen ∧ t.width = s.width ∧ t.height = s.height ∧ t.payload = s.payload

/-- 40_bit_cursor.md R117, 10_state.md R33: in a running decode the cursor stays or moves forward by CODESIZE, and never
passes the end of the payload. -/
def Obligations.CursorOnlyMovesForward : Prop :=
  ∀ s t : State, Inv s → s.busy = true → engineStep s = .next t →
    (t.bitpos = s.bitpos ∨ t.bitpos.toNat = s.bitpos.toNat + s.codesize.toNat)
    ∧ t.bitpos.toNat ≤ 8 * s.payload.length

/-- 60_exceptions.md R201, R202: only KWK without a previous string, INV, and DECODE with an illegal MINCS raise
FormatError (MINCS as the command finds it: log entry 5). -/
def Obligations.OnlyThreeCausesRaise : Prop :=
  ∀ (i : Instr) (s t : State), exec i s = .next t → s.err = false → t.err = true →
    (∃ c, i = .kwk c ∧ s.prevV = false) ∨ (∃ c, i = .inv c)
    ∨ (i = .decode ∧ ((settleDecode s).mincs.toNat < 2 ∨ 8 < (settleDecode s).mincs.toNat))

/-- 00_scope.md R7: no step changes the capacities. -/
def Obligations.CapacitiesAreFixed : Prop :=
  ∀ s t : State, step s = .next t → t.params = s.params

/-- 10_state.md R49: two accepted DECODEs with the same operands and the same input start from states that a decode cannot
tell apart, whatever earlier commands left. -/
def Obligations.DecodesStartAlike : Prop :=
  ∀ s t s' t' : State, s.busy = false → t.busy = false →
    s.written decodeOperands = true → t.written decodeOperands = true →
    s.mincs = t.mincs → s.expect = t.expect → s.ilen = t.ilen → s.config = t.config →
    (∀ a, a < s.ilen.toNat → s.cell .ibuf a = t.cell .ibuf a) →
    2 ≤ s.mincs.toNat → s.mincs.toNat ≤ 8 →
    exec .decode s = .next s' → exec .decode t = .next t' → sameDecode s' t'

/-- 10_state.md R49: states that a decode cannot tell apart stay so along the whole decode, halts included. -/
def Obligations.DecodeRunsAreIsolated : Prop :=
  ∀ (k : Nat) (s t s' : State), sameDecode s t → s.opk = false → s.script = [] → t.script = [] →
    runSteps k s = some s' → ∃ t', runSteps k t = some t' ∧ sameDecode s' t'

/-- 41_lzw_codes.md R142: the decoder over prefix chains and the decoder over strings emit the same indices and take the same
halts; a DECODE, its operands written, starts both alike. -/
def Obligations.ArenaRefinesStrings : Prop :=
  (∀ s t : State, s.busy = false → s.written decodeOperands = true → exec .decode s = .next t → t.busy = true →
    represents t (stringInit t.clearcode.toNat))
  ∧ ∀ (s t : State) (d : StringDecoder) (i : Instr) (c : Code), Inv s → s.busy = true → represents s d →
    s.fetch = .ok i → encodeCode s.context i = some c → exec i s = .next t →
    (∀ str d', stringCode s.clearcode.toNat c.toNat d = some (str, d') →
      represents t d' ∧ stored str s t ∧ t.status = s.status)
    ∧ (stringCode s.clearcode.toNat c.toNat d = none → t.busy = false ∧ stored [] s t)

/-- 41_lzw_codes.md R143 (round trip), 95_test_vectors.md section 4: a DECODE of what the reference encoder makes of an index
sequence, with EXPECT its length, halts with COUNT and has decoded exactly that sequence. The encoder is the spec's from
general knowledge (log entry 23). -/
def Obligations.ReferenceEncoderRoundTrip : Prop :=
  ∀ (m : Nat) (idx : List Byte) (s s' : State), 2 ≤ m → m ≤ 8 → (∀ b, b ∈ idx → b.toNat < 2 ^ m) →
    s.busy = false → s.script = [] → s.written decodeOperands = true → s.mincs.toNat = m →
    s.expect.toNat = idx.length → exec .decode s = .next s' → s'.payload = referencePayload m idx →
    ∃ k t, runSteps k s' = some t ∧ t.status = 0x00000012#32 ∧ t.ocnt.toNat = idx.length
      ∧ ∀ j b, idx[j]? = some b → t.cell .obuf j = b
end

