-- ==== Sys2Proof/Laws/State.lean ====
section
/-! SUPPORT. One lemma per field per update of State: each true by rfl, each a simp lemma. -/

namespace Sys2Proof.Machine

section
variable (w : BitVec 32) (s : State)

@[simp] theorem setStatus_status : (setStatus w s).status = w := rfl
@[simp] theorem setStatus_config : (setStatus w s).config = s.config := rfl
@[simp] theorem setStatus_mincs : (setStatus w s).mincs = s.mincs := rfl
@[simp] theorem setStatus_expect : (setStatus w s).expect = s.expect := rfl
@[simp] theorem setStatus_ilen : (setStatus w s).ilen = s.ilen := rfl
@[simp] theorem setStatus_width : (setStatus w s).width = s.width := rfl
@[simp] theorem setStatus_height : (setStatus w s).height = s.height := rfl
@[simp] theorem setStatus_ocnt : (setStatus w s).ocnt = s.ocnt := rfl
@[simp] theorem setStatus_dlen : (setStatus w s).dlen = s.dlen := rfl
@[simp] theorem setStatus_bitpos : (setStatus w s).bitpos = s.bitpos := rfl
@[simp] theorem setStatus_codesize : (setStatus w s).codesize = s.codesize := rfl
@[simp] theorem setStatus_next : (setStatus w s).next = s.next := rfl
@[simp] theorem setStatus_prev : (setStatus w s).prev = s.prev := rfl
@[simp] theorem setStatus_clearcode : (setStatus w s).clearcode = s.clearcode := rfl
@[simp] theorem setStatus_endcode : (setStatus w s).endcode = s.endcode := rfl
@[simp] theorem setStatus_ecode : (setStatus w s).ecode = s.ecode := rfl
@[simp] theorem setStatus_epos : (setStatus w s).epos = s.epos := rfl
@[simp] theorem setStatus_ibuf : (setStatus w s).ibuf = s.ibuf := rfl
@[simp] theorem setStatus_obuf : (setStatus w s).obuf = s.obuf := rfl
@[simp] theorem setStatus_dbuf : (setStatus w s).dbuf = s.dbuf := rfl
@[simp] theorem setStatus_tab : (setStatus w s).tab = s.tab := rfl
@[simp] theorem setStatus_unspec : (setStatus w s).unspec = s.unspec := rfl
@[simp] theorem setStatus_params : (setStatus w s).params = s.params := rfl
@[simp] theorem setStatus_script : (setStatus w s).script = s.script := rfl
@[simp] theorem setStatus_lastRead : (setStatus w s).lastRead = s.lastRead := rfl
@[simp] theorem setStatus_epoch : (setStatus w s).epoch = s.epoch := rfl
@[simp] theorem setStatus_dbufEpoch : (setStatus w s).dbufEpoch = s.dbufEpoch := rfl
@[simp] theorem setStatus_draws : (setStatus w s).draws = s.draws := rfl
@[simp] theorem setStatus_synced : (setStatus w s).synced = s.synced := rfl

@[simp] theorem setStatus_cell_ibuf (a : Nat) : (setStatus w s).cell .ibuf a = s.cell .ibuf a := rfl
@[simp] theorem setStatus_cell_obuf (a : Nat) : (setStatus w s).cell .obuf a = s.cell .obuf a := rfl
@[simp] theorem setStatus_cell_dbuf (a : Nat) : (setStatus w s).cell .dbuf a = s.cell .dbuf a := rfl

end

section
variable (p : BitVec 35) (s : State)

@[simp] theorem setBitpos_status : (setBitpos p s).status = s.status := rfl
@[simp] theorem setBitpos_config : (setBitpos p s).config = s.config := rfl
@[simp] theorem setBitpos_mincs : (setBitpos p s).mincs = s.mincs := rfl
@[simp] theorem setBitpos_expect : (setBitpos p s).expect = s.expect := rfl
@[simp] theorem setBitpos_ilen : (setBitpos p s).ilen = s.ilen := rfl
@[simp] theorem setBitpos_width : (setBitpos p s).width = s.width := rfl
@[simp] theorem setBitpos_height : (setBitpos p s).height = s.height := rfl
@[simp] theorem setBitpos_ocnt : (setBitpos p s).ocnt = s.ocnt := rfl
@[simp] theorem setBitpos_dlen : (setBitpos p s).dlen = s.dlen := rfl
@[simp] theorem setBitpos_bitpos : (setBitpos p s).bitpos = p := rfl
@[simp] theorem setBitpos_codesize : (setBitpos p s).codesize = s.codesize := rfl
@[simp] theorem setBitpos_next : (setBitpos p s).next = s.next := rfl
@[simp] theorem setBitpos_prev : (setBitpos p s).prev = s.prev := rfl
@[simp] theorem setBitpos_clearcode : (setBitpos p s).clearcode = s.clearcode := rfl
@[simp] theorem setBitpos_endcode : (setBitpos p s).endcode = s.endcode := rfl
@[simp] theorem setBitpos_ecode : (setBitpos p s).ecode = s.ecode := rfl
@[simp] theorem setBitpos_epos : (setBitpos p s).epos = s.epos := rfl
@[simp] theorem setBitpos_ibuf : (setBitpos p s).ibuf = s.ibuf := rfl
@[simp] theorem setBitpos_obuf : (setBitpos p s).obuf = s.obuf := rfl
@[simp] theorem setBitpos_dbuf : (setBitpos p s).dbuf = s.dbuf := rfl
@[simp] theorem setBitpos_tab : (setBitpos p s).tab = s.tab := rfl
@[simp] theorem setBitpos_unspec : (setBitpos p s).unspec = s.unspec := rfl
@[simp] theorem setBitpos_params : (setBitpos p s).params = s.params := rfl
@[simp] theorem setBitpos_script : (setBitpos p s).script = s.script := rfl
@[simp] theorem setBitpos_lastRead : (setBitpos p s).lastRead = s.lastRead := rfl
@[simp] theorem setBitpos_epoch : (setBitpos p s).epoch = s.epoch := rfl
@[simp] theorem setBitpos_dbufEpoch : (setBitpos p s).dbufEpoch = s.dbufEpoch := rfl
@[simp] theorem setBitpos_draws : (setBitpos p s).draws = s.draws := rfl
@[simp] theorem setBitpos_synced : (setBitpos p s).synced = s.synced := rfl

@[simp] theorem setBitpos_cell_ibuf (a : Nat) : (setBitpos p s).cell .ibuf a = s.cell .ibuf a := rfl
@[simp] theorem setBitpos_cell_obuf (a : Nat) : (setBitpos p s).cell .obuf a = s.cell .obuf a := rfl
@[simp] theorem setBitpos_cell_dbuf (a : Nat) : (setBitpos p s).cell .dbuf a = s.cell .dbuf a := rfl

end

section
variable (w : BitVec 4) (s : State)

@[simp] theorem setCodesize_status : (setCodesize w s).status = s.status := rfl
@[simp] theorem setCodesize_config : (setCodesize w s).config = s.config := rfl
@[simp] theorem setCodesize_mincs : (setCodesize w s).mincs = s.mincs := rfl
@[simp] theorem setCodesize_expect : (setCodesize w s).expect = s.expect := rfl
@[simp] theorem setCodesize_ilen : (setCodesize w s).ilen = s.ilen := rfl
@[simp] theorem setCodesize_width : (setCodesize w s).width = s.width := rfl
@[simp] theorem setCodesize_height : (setCodesize w s).height = s.height := rfl
@[simp] theorem setCodesize_ocnt : (setCodesize w s).ocnt = s.ocnt := rfl
@[simp] theorem setCodesize_dlen : (setCodesize w s).dlen = s.dlen := rfl
@[simp] theorem setCodesize_bitpos : (setCodesize w s).bitpos = s.bitpos := rfl
@[simp] theorem setCodesize_codesize : (setCodesize w s).codesize = w := rfl
@[simp] theorem setCodesize_next : (setCodesize w s).next = s.next := rfl
@[simp] theorem setCodesize_prev : (setCodesize w s).prev = s.prev := rfl
@[simp] theorem setCodesize_clearcode : (setCodesize w s).clearcode = s.clearcode := rfl
@[simp] theorem setCodesize_endcode : (setCodesize w s).endcode = s.endcode := rfl
@[simp] theorem setCodesize_ecode : (setCodesize w s).ecode = s.ecode := rfl
@[simp] theorem setCodesize_epos : (setCodesize w s).epos = s.epos := rfl
@[simp] theorem setCodesize_ibuf : (setCodesize w s).ibuf = s.ibuf := rfl
@[simp] theorem setCodesize_obuf : (setCodesize w s).obuf = s.obuf := rfl
@[simp] theorem setCodesize_dbuf : (setCodesize w s).dbuf = s.dbuf := rfl
@[simp] theorem setCodesize_tab : (setCodesize w s).tab = s.tab := rfl
@[simp] theorem setCodesize_unspec : (setCodesize w s).unspec = s.unspec := rfl
@[simp] theorem setCodesize_params : (setCodesize w s).params = s.params := rfl
@[simp] theorem setCodesize_script : (setCodesize w s).script = s.script := rfl
@[simp] theorem setCodesize_lastRead : (setCodesize w s).lastRead = s.lastRead := rfl
@[simp] theorem setCodesize_epoch : (setCodesize w s).epoch = s.epoch := rfl
@[simp] theorem setCodesize_dbufEpoch : (setCodesize w s).dbufEpoch = s.dbufEpoch := rfl
@[simp] theorem setCodesize_draws : (setCodesize w s).draws = s.draws := rfl
@[simp] theorem setCodesize_synced : (setCodesize w s).synced = s.synced := rfl

@[simp] theorem setCodesize_cell_ibuf (a : Nat) : (setCodesize w s).cell .ibuf a = s.cell .ibuf a := rfl
@[simp] theorem setCodesize_cell_obuf (a : Nat) : (setCodesize w s).cell .obuf a = s.cell .obuf a := rfl
@[simp] theorem setCodesize_cell_dbuf (a : Nat) : (setCodesize w s).cell .dbuf a = s.cell .dbuf a := rfl

end

section
variable (p : BitVec 13) (s : State)

@[simp] theorem setPrev_status : (setPrev p s).status = s.status := rfl
@[simp] theorem setPrev_config : (setPrev p s).config = s.config := rfl
@[simp] theorem setPrev_mincs : (setPrev p s).mincs = s.mincs := rfl
@[simp] theorem setPrev_expect : (setPrev p s).expect = s.expect := rfl
@[simp] theorem setPrev_ilen : (setPrev p s).ilen = s.ilen := rfl
@[simp] theorem setPrev_width : (setPrev p s).width = s.width := rfl
@[simp] theorem setPrev_height : (setPrev p s).height = s.height := rfl
@[simp] theorem setPrev_ocnt : (setPrev p s).ocnt = s.ocnt := rfl
@[simp] theorem setPrev_dlen : (setPrev p s).dlen = s.dlen := rfl
@[simp] theorem setPrev_bitpos : (setPrev p s).bitpos = s.bitpos := rfl
@[simp] theorem setPrev_codesize : (setPrev p s).codesize = s.codesize := rfl
@[simp] theorem setPrev_next : (setPrev p s).next = s.next := rfl
@[simp] theorem setPrev_prev : (setPrev p s).prev = p := rfl
@[simp] theorem setPrev_clearcode : (setPrev p s).clearcode = s.clearcode := rfl
@[simp] theorem setPrev_endcode : (setPrev p s).endcode = s.endcode := rfl
@[simp] theorem setPrev_ecode : (setPrev p s).ecode = s.ecode := rfl
@[simp] theorem setPrev_epos : (setPrev p s).epos = s.epos := rfl
@[simp] theorem setPrev_ibuf : (setPrev p s).ibuf = s.ibuf := rfl
@[simp] theorem setPrev_obuf : (setPrev p s).obuf = s.obuf := rfl
@[simp] theorem setPrev_dbuf : (setPrev p s).dbuf = s.dbuf := rfl
@[simp] theorem setPrev_tab : (setPrev p s).tab = s.tab := rfl
@[simp] theorem setPrev_unspec : (setPrev p s).unspec = s.unspec := rfl
@[simp] theorem setPrev_params : (setPrev p s).params = s.params := rfl
@[simp] theorem setPrev_script : (setPrev p s).script = s.script := rfl
@[simp] theorem setPrev_lastRead : (setPrev p s).lastRead = s.lastRead := rfl
@[simp] theorem setPrev_epoch : (setPrev p s).epoch = s.epoch := rfl
@[simp] theorem setPrev_dbufEpoch : (setPrev p s).dbufEpoch = s.dbufEpoch := rfl
@[simp] theorem setPrev_draws : (setPrev p s).draws = s.draws := rfl
@[simp] theorem setPrev_synced : (setPrev p s).synced = s.synced := rfl

@[simp] theorem setPrev_cell_ibuf (a : Nat) : (setPrev p s).cell .ibuf a = s.cell .ibuf a := rfl
@[simp] theorem setPrev_cell_obuf (a : Nat) : (setPrev p s).cell .obuf a = s.cell .obuf a := rfl
@[simp] theorem setPrev_cell_dbuf (a : Nat) : (setPrev p s).cell .dbuf a = s.cell .dbuf a := rfl

end

section
variable (m : Table) (n : BitVec 13) (s : State)

@[simp] theorem setTable_status : (setTable m n s).status = s.status := rfl
@[simp] theorem setTable_config : (setTable m n s).config = s.config := rfl
@[simp] theorem setTable_mincs : (setTable m n s).mincs = s.mincs := rfl
@[simp] theorem setTable_expect : (setTable m n s).expect = s.expect := rfl
@[simp] theorem setTable_ilen : (setTable m n s).ilen = s.ilen := rfl
@[simp] theorem setTable_width : (setTable m n s).width = s.width := rfl
@[simp] theorem setTable_height : (setTable m n s).height = s.height := rfl
@[simp] theorem setTable_ocnt : (setTable m n s).ocnt = s.ocnt := rfl
@[simp] theorem setTable_dlen : (setTable m n s).dlen = s.dlen := rfl
@[simp] theorem setTable_bitpos : (setTable m n s).bitpos = s.bitpos := rfl
@[simp] theorem setTable_codesize : (setTable m n s).codesize = s.codesize := rfl
@[simp] theorem setTable_next : (setTable m n s).next = n := rfl
@[simp] theorem setTable_prev : (setTable m n s).prev = s.prev := rfl
@[simp] theorem setTable_clearcode : (setTable m n s).clearcode = s.clearcode := rfl
@[simp] theorem setTable_endcode : (setTable m n s).endcode = s.endcode := rfl
@[simp] theorem setTable_ecode : (setTable m n s).ecode = s.ecode := rfl
@[simp] theorem setTable_epos : (setTable m n s).epos = s.epos := rfl
@[simp] theorem setTable_ibuf : (setTable m n s).ibuf = s.ibuf := rfl
@[simp] theorem setTable_obuf : (setTable m n s).obuf = s.obuf := rfl
@[simp] theorem setTable_dbuf : (setTable m n s).dbuf = s.dbuf := rfl
@[simp] theorem setTable_tab : (setTable m n s).tab = m := rfl
@[simp] theorem setTable_unspec : (setTable m n s).unspec = s.unspec := rfl
@[simp] theorem setTable_params : (setTable m n s).params = s.params := rfl
@[simp] theorem setTable_script : (setTable m n s).script = s.script := rfl
@[simp] theorem setTable_lastRead : (setTable m n s).lastRead = s.lastRead := rfl
@[simp] theorem setTable_epoch : (setTable m n s).epoch = s.epoch := rfl
@[simp] theorem setTable_dbufEpoch : (setTable m n s).dbufEpoch = s.dbufEpoch := rfl
@[simp] theorem setTable_draws : (setTable m n s).draws = s.draws := rfl
@[simp] theorem setTable_synced : (setTable m n s).synced = s.synced := rfl

@[simp] theorem setTable_cell_ibuf (a : Nat) : (setTable m n s).cell .ibuf a = s.cell .ibuf a := rfl
@[simp] theorem setTable_cell_obuf (a : Nat) : (setTable m n s).cell .obuf a = s.cell .obuf a := rfl
@[simp] theorem setTable_cell_dbuf (a : Nat) : (setTable m n s).cell .dbuf a = s.cell .dbuf a := rfl

end

section
variable (m : Memory) (n : BitVec 32) (s : State)

@[simp] theorem setOutput_status : (setOutput m n s).status = s.status := rfl
@[simp] theorem setOutput_config : (setOutput m n s).config = s.config := rfl
@[simp] theorem setOutput_mincs : (setOutput m n s).mincs = s.mincs := rfl
@[simp] theorem setOutput_expect : (setOutput m n s).expect = s.expect := rfl
@[simp] theorem setOutput_ilen : (setOutput m n s).ilen = s.ilen := rfl
@[simp] theorem setOutput_width : (setOutput m n s).width = s.width := rfl
@[simp] theorem setOutput_height : (setOutput m n s).height = s.height := rfl
@[simp] theorem setOutput_ocnt : (setOutput m n s).ocnt = n := rfl
@[simp] theorem setOutput_dlen : (setOutput m n s).dlen = s.dlen := rfl
@[simp] theorem setOutput_bitpos : (setOutput m n s).bitpos = s.bitpos := rfl
@[simp] theorem setOutput_codesize : (setOutput m n s).codesize = s.codesize := rfl
@[simp] theorem setOutput_next : (setOutput m n s).next = s.next := rfl
@[simp] theorem setOutput_prev : (setOutput m n s).prev = s.prev := rfl
@[simp] theorem setOutput_clearcode : (setOutput m n s).clearcode = s.clearcode := rfl
@[simp] theorem setOutput_endcode : (setOutput m n s).endcode = s.endcode := rfl
@[simp] theorem setOutput_ecode : (setOutput m n s).ecode = s.ecode := rfl
@[simp] theorem setOutput_epos : (setOutput m n s).epos = s.epos := rfl
@[simp] theorem setOutput_ibuf : (setOutput m n s).ibuf = s.ibuf := rfl
@[simp] theorem setOutput_obuf : (setOutput m n s).obuf = m := rfl
@[simp] theorem setOutput_dbuf : (setOutput m n s).dbuf = s.dbuf := rfl
@[simp] theorem setOutput_tab : (setOutput m n s).tab = s.tab := rfl
@[simp] theorem setOutput_unspec : (setOutput m n s).unspec = s.unspec := rfl
@[simp] theorem setOutput_params : (setOutput m n s).params = s.params := rfl
@[simp] theorem setOutput_script : (setOutput m n s).script = s.script := rfl
@[simp] theorem setOutput_lastRead : (setOutput m n s).lastRead = s.lastRead := rfl
@[simp] theorem setOutput_epoch : (setOutput m n s).epoch = s.epoch := rfl
@[simp] theorem setOutput_dbufEpoch : (setOutput m n s).dbufEpoch = s.dbufEpoch := rfl
@[simp] theorem setOutput_draws : (setOutput m n s).draws = s.draws := rfl
@[simp] theorem setOutput_synced : (setOutput m n s).synced = s.synced := rfl

@[simp] theorem setOutput_cell_ibuf (a : Nat) : (setOutput m n s).cell .ibuf a = s.cell .ibuf a := rfl
@[simp] theorem setOutput_cell_dbuf (a : Nat) : (setOutput m n s).cell .dbuf a = s.cell .dbuf a := rfl

end

section
variable (c : Code) (p : BitVec 35) (s : State)

@[simp] theorem setRecord_status : (setRecord c p s).status = s.status := rfl
@[simp] theorem setRecord_config : (setRecord c p s).config = s.config := rfl
@[simp] theorem setRecord_mincs : (setRecord c p s).mincs = s.mincs := rfl
@[simp] theorem setRecord_expect : (setRecord c p s).expect = s.expect := rfl
@[simp] theorem setRecord_ilen : (setRecord c p s).ilen = s.ilen := rfl
@[simp] theorem setRecord_width : (setRecord c p s).width = s.width := rfl
@[simp] theorem setRecord_height : (setRecord c p s).height = s.height := rfl
@[simp] theorem setRecord_ocnt : (setRecord c p s).ocnt = s.ocnt := rfl
@[simp] theorem setRecord_dlen : (setRecord c p s).dlen = s.dlen := rfl
@[simp] theorem setRecord_bitpos : (setRecord c p s).bitpos = s.bitpos := rfl
@[simp] theorem setRecord_codesize : (setRecord c p s).codesize = s.codesize := rfl
@[simp] theorem setRecord_next : (setRecord c p s).next = s.next := rfl
@[simp] theorem setRecord_prev : (setRecord c p s).prev = s.prev := rfl
@[simp] theorem setRecord_clearcode : (setRecord c p s).clearcode = s.clearcode := rfl
@[simp] theorem setRecord_endcode : (setRecord c p s).endcode = s.endcode := rfl
@[simp] theorem setRecord_ecode : (setRecord c p s).ecode = c := rfl
@[simp] theorem setRecord_epos : (setRecord c p s).epos = p := rfl
@[simp] theorem setRecord_ibuf : (setRecord c p s).ibuf = s.ibuf := rfl
@[simp] theorem setRecord_obuf : (setRecord c p s).obuf = s.obuf := rfl
@[simp] theorem setRecord_dbuf : (setRecord c p s).dbuf = s.dbuf := rfl
@[simp] theorem setRecord_tab : (setRecord c p s).tab = s.tab := rfl
@[simp] theorem setRecord_unspec : (setRecord c p s).unspec = s.unspec := rfl
@[simp] theorem setRecord_params : (setRecord c p s).params = s.params := rfl
@[simp] theorem setRecord_script : (setRecord c p s).script = s.script := rfl
@[simp] theorem setRecord_lastRead : (setRecord c p s).lastRead = s.lastRead := rfl
@[simp] theorem setRecord_epoch : (setRecord c p s).epoch = s.epoch := rfl
@[simp] theorem setRecord_dbufEpoch : (setRecord c p s).dbufEpoch = s.dbufEpoch := rfl
@[simp] theorem setRecord_draws : (setRecord c p s).draws = s.draws := rfl
@[simp] theorem setRecord_synced : (setRecord c p s).synced = s.synced := rfl

@[simp] theorem setRecord_cell_ibuf (a : Nat) : (setRecord c p s).cell .ibuf a = s.cell .ibuf a := rfl
@[simp] theorem setRecord_cell_obuf (a : Nat) : (setRecord c p s).cell .obuf a = s.cell .obuf a := rfl
@[simp] theorem setRecord_cell_dbuf (a : Nat) : (setRecord c p s).cell .dbuf a = s.cell .dbuf a := rfl

end

section
variable (v : BitVec 35) (s : State)

@[simp] theorem setLastRead_status : (setLastRead v s).status = s.status := rfl
@[simp] theorem setLastRead_config : (setLastRead v s).config = s.config := rfl
@[simp] theorem setLastRead_mincs : (setLastRead v s).mincs = s.mincs := rfl
@[simp] theorem setLastRead_expect : (setLastRead v s).expect = s.expect := rfl
@[simp] theorem setLastRead_ilen : (setLastRead v s).ilen = s.ilen := rfl
@[simp] theorem setLastRead_width : (setLastRead v s).width = s.width := rfl
@[simp] theorem setLastRead_height : (setLastRead v s).height = s.height := rfl
@[simp] theorem setLastRead_ocnt : (setLastRead v s).ocnt = s.ocnt := rfl
@[simp] theorem setLastRead_dlen : (setLastRead v s).dlen = s.dlen := rfl
@[simp] theorem setLastRead_bitpos : (setLastRead v s).bitpos = s.bitpos := rfl
@[simp] theorem setLastRead_codesize : (setLastRead v s).codesize = s.codesize := rfl
@[simp] theorem setLastRead_next : (setLastRead v s).next = s.next := rfl
@[simp] theorem setLastRead_prev : (setLastRead v s).prev = s.prev := rfl
@[simp] theorem setLastRead_clearcode : (setLastRead v s).clearcode = s.clearcode := rfl
@[simp] theorem setLastRead_endcode : (setLastRead v s).endcode = s.endcode := rfl
@[simp] theorem setLastRead_ecode : (setLastRead v s).ecode = s.ecode := rfl
@[simp] theorem setLastRead_epos : (setLastRead v s).epos = s.epos := rfl
@[simp] theorem setLastRead_ibuf : (setLastRead v s).ibuf = s.ibuf := rfl
@[simp] theorem setLastRead_obuf : (setLastRead v s).obuf = s.obuf := rfl
@[simp] theorem setLastRead_dbuf : (setLastRead v s).dbuf = s.dbuf := rfl
@[simp] theorem setLastRead_tab : (setLastRead v s).tab = s.tab := rfl
@[simp] theorem setLastRead_unspec : (setLastRead v s).unspec = s.unspec := rfl
@[simp] theorem setLastRead_params : (setLastRead v s).params = s.params := rfl
@[simp] theorem setLastRead_script : (setLastRead v s).script = s.script := rfl
@[simp] theorem setLastRead_lastRead : (setLastRead v s).lastRead = some v := rfl
@[simp] theorem setLastRead_epoch : (setLastRead v s).epoch = s.epoch := rfl
@[simp] theorem setLastRead_dbufEpoch : (setLastRead v s).dbufEpoch = s.dbufEpoch := rfl
@[simp] theorem setLastRead_draws : (setLastRead v s).draws = s.draws := rfl
@[simp] theorem setLastRead_synced : (setLastRead v s).synced = s.synced := rfl

@[simp] theorem setLastRead_cell_ibuf (a : Nat) : (setLastRead v s).cell .ibuf a = s.cell .ibuf a := rfl
@[simp] theorem setLastRead_cell_obuf (a : Nat) : (setLastRead v s).cell .obuf a = s.cell .obuf a := rfl
@[simp] theorem setLastRead_cell_dbuf (a : Nat) : (setLastRead v s).cell .dbuf a = s.cell .dbuf a := rfl

end

section
variable (l : List HostMove) (s : State)

@[simp] theorem setScript_status : (setScript l s).status = s.status := rfl
@[simp] theorem setScript_config : (setScript l s).config = s.config := rfl
@[simp] theorem setScript_mincs : (setScript l s).mincs = s.mincs := rfl
@[simp] theorem setScript_expect : (setScript l s).expect = s.expect := rfl
@[simp] theorem setScript_ilen : (setScript l s).ilen = s.ilen := rfl
@[simp] theorem setScript_width : (setScript l s).width = s.width := rfl
@[simp] theorem setScript_height : (setScript l s).height = s.height := rfl
@[simp] theorem setScript_ocnt : (setScript l s).ocnt = s.ocnt := rfl
@[simp] theorem setScript_dlen : (setScript l s).dlen = s.dlen := rfl
@[simp] theorem setScript_bitpos : (setScript l s).bitpos = s.bitpos := rfl
@[simp] theorem setScript_codesize : (setScript l s).codesize = s.codesize := rfl
@[simp] theorem setScript_next : (setScript l s).next = s.next := rfl
@[simp] theorem setScript_prev : (setScript l s).prev = s.prev := rfl
@[simp] theorem setScript_clearcode : (setScript l s).clearcode = s.clearcode := rfl
@[simp] theorem setScript_endcode : (setScript l s).endcode = s.endcode := rfl
@[simp] theorem setScript_ecode : (setScript l s).ecode = s.ecode := rfl
@[simp] theorem setScript_epos : (setScript l s).epos = s.epos := rfl
@[simp] theorem setScript_ibuf : (setScript l s).ibuf = s.ibuf := rfl
@[simp] theorem setScript_obuf : (setScript l s).obuf = s.obuf := rfl
@[simp] theorem setScript_dbuf : (setScript l s).dbuf = s.dbuf := rfl
@[simp] theorem setScript_tab : (setScript l s).tab = s.tab := rfl
@[simp] theorem setScript_unspec : (setScript l s).unspec = s.unspec := rfl
@[simp] theorem setScript_params : (setScript l s).params = s.params := rfl
@[simp] theorem setScript_script : (setScript l s).script = l := rfl
@[simp] theorem setScript_lastRead : (setScript l s).lastRead = s.lastRead := rfl
@[simp] theorem setScript_epoch : (setScript l s).epoch = s.epoch := rfl
@[simp] theorem setScript_dbufEpoch : (setScript l s).dbufEpoch = s.dbufEpoch := rfl
@[simp] theorem setScript_draws : (setScript l s).draws = s.draws := rfl
@[simp] theorem setScript_synced : (setScript l s).synced = s.synced := rfl

@[simp] theorem setScript_cell_ibuf (a : Nat) : (setScript l s).cell .ibuf a = s.cell .ibuf a := rfl
@[simp] theorem setScript_cell_obuf (a : Nat) : (setScript l s).cell .obuf a = s.cell .obuf a := rfl
@[simp] theorem setScript_cell_dbuf (a : Nat) : (setScript l s).cell .dbuf a = s.cell .dbuf a := rfl

end

section
variable (b : Bool) (s : State)

@[simp] theorem setSynced_status : (setSynced b s).status = s.status := rfl
@[simp] theorem setSynced_config : (setSynced b s).config = s.config := rfl
@[simp] theorem setSynced_mincs : (setSynced b s).mincs = s.mincs := rfl
@[simp] theorem setSynced_expect : (setSynced b s).expect = s.expect := rfl
@[simp] theorem setSynced_ilen : (setSynced b s).ilen = s.ilen := rfl
@[simp] theorem setSynced_width : (setSynced b s).width = s.width := rfl
@[simp] theorem setSynced_height : (setSynced b s).height = s.height := rfl
@[simp] theorem setSynced_ocnt : (setSynced b s).ocnt = s.ocnt := rfl
@[simp] theorem setSynced_dlen : (setSynced b s).dlen = s.dlen := rfl
@[simp] theorem setSynced_bitpos : (setSynced b s).bitpos = s.bitpos := rfl
@[simp] theorem setSynced_codesize : (setSynced b s).codesize = s.codesize := rfl
@[simp] theorem setSynced_next : (setSynced b s).next = s.next := rfl
@[simp] theorem setSynced_prev : (setSynced b s).prev = s.prev := rfl
@[simp] theorem setSynced_clearcode : (setSynced b s).clearcode = s.clearcode := rfl
@[simp] theorem setSynced_endcode : (setSynced b s).endcode = s.endcode := rfl
@[simp] theorem setSynced_ecode : (setSynced b s).ecode = s.ecode := rfl
@[simp] theorem setSynced_epos : (setSynced b s).epos = s.epos := rfl
@[simp] theorem setSynced_ibuf : (setSynced b s).ibuf = s.ibuf := rfl
@[simp] theorem setSynced_obuf : (setSynced b s).obuf = s.obuf := rfl
@[simp] theorem setSynced_dbuf : (setSynced b s).dbuf = s.dbuf := rfl
@[simp] theorem setSynced_tab : (setSynced b s).tab = s.tab := rfl
@[simp] theorem setSynced_unspec : (setSynced b s).unspec = s.unspec := rfl
@[simp] theorem setSynced_params : (setSynced b s).params = s.params := rfl
@[simp] theorem setSynced_script : (setSynced b s).script = s.script := rfl
@[simp] theorem setSynced_lastRead : (setSynced b s).lastRead = s.lastRead := rfl
@[simp] theorem setSynced_epoch : (setSynced b s).epoch = s.epoch := rfl
@[simp] theorem setSynced_dbufEpoch : (setSynced b s).dbufEpoch = s.dbufEpoch := rfl
@[simp] theorem setSynced_draws : (setSynced b s).draws = s.draws := rfl
@[simp] theorem setSynced_synced : (setSynced b s).synced = b := rfl

@[simp] theorem setSynced_cell_ibuf (a : Nat) : (setSynced b s).cell .ibuf a = s.cell .ibuf a := rfl
@[simp] theorem setSynced_cell_obuf (a : Nat) : (setSynced b s).cell .obuf a = s.cell .obuf a := rfl
@[simp] theorem setSynced_cell_dbuf (a : Nat) : (setSynced b s).cell .dbuf a = s.cell .dbuf a := rfl

end

end Sys2Proof.Machine
end

