-- ==== Sys2Proof/Laws/Memory.lean ====
section
/-! SUPPORT. Sparse memories: read after write, and every write keeps the canonical form. -/

namespace Sys2Proof.Machine

variable {α : Type}

/-- A read of the place just written gives what was written. -/
@[simp] theorem Store.read_write_same (a : Nat) (v : α) (m : List (Nat × α)) :
    Store.read a (Store.write a v m) = some v := by
  induction m with
  | nil => simp [Store.write, Store.read]
  | cons e m ih =>
    obtain ⟨b, u⟩ := e
    simp only [Store.write]
    split
    · simp [Store.read]
    · split
      · simp [Store.read]
      · simp [Store.read, *]

/-- A write leaves every other place alone. -/
theorem Store.read_write_other {a b : Nat} (h : b ≠ a) (v : α) (m : List (Nat × α)) :
    Store.read b (Store.write a v m) = Store.read b m := by
  induction m with
  | nil => simp [Store.write, Store.read, h]
  | cons e m ih =>
    obtain ⟨c, u⟩ := e
    simp only [Store.write]
    split
    · simp [Store.read, h]
    · split
      · next hac => simp [Store.read, ← hac, h]
      · simp only [Store.read, ih]

/-- Addresses that rise from a bound rise from every lower bound. -/
theorem Store.risingFrom_mono {lo lo' : Nat} (h : lo' ≤ lo) {m : List (Nat × α)}
    (hm : Store.risingFrom lo m = true) : Store.risingFrom lo' m = true := by
  cases m with
  | nil => rfl
  | cons e m =>
    obtain ⟨a, v⟩ := e
    simp only [Store.risingFrom, Bool.and_eq_true, decide_eq_true_eq] at hm ⊢
    exact ⟨by omega, hm.2⟩

/-- A write at or above the bound keeps the addresses rising from the bound. -/
theorem Store.risingFrom_write {lo a : Nat} (h : lo ≤ a) (v : α) {m : List (Nat × α)}
    (hm : Store.risingFrom lo m = true) : Store.risingFrom lo (Store.write a v m) = true := by
  induction m generalizing lo with
  | nil => simp [Store.write, Store.risingFrom, h]
  | cons e m ih =>
    obtain ⟨b, u⟩ := e
    simp only [Store.risingFrom, Bool.and_eq_true, decide_eq_true_eq] at hm
    simp only [Store.write]
    split
    · simp only [Store.risingFrom, Bool.and_eq_true, decide_eq_true_eq]
      exact ⟨h, by omega, hm.2⟩
    · split
      · next hab => subst hab; simp [Store.risingFrom, h, hm.2]
      · simp only [Store.risingFrom, Bool.and_eq_true, decide_eq_true_eq]
        exact ⟨hm.1, ih (by omega) hm.2⟩

/-- A write keeps a buffer canonical. -/
theorem Memory.wf_write (a : Nat) (v : Byte) {m : Memory} (h : m.wf = true) :
    Memory.wf (Store.write a v m) = true :=
  Store.risingFrom_write (Nat.zero_le a) v h

/-- A write keeps the table canonical. -/
theorem Table.wf_write (a : Nat) (e : TabEntry) {t : Table} (h : Table.wf t = true) :
    Table.wf (Store.write a e t) = true :=
  Store.risingFrom_write (Nat.zero_le a) e h

/-- A write adds at most its own address to the list. -/
theorem Store.mem_write {a : Nat} {v : α} {m : List (Nat × α)} {e : Nat × α} (h : e ∈ Store.write a v m) :
    e = (a, v) ∨ e ∈ m := by
  induction m with
  | nil => simpa [Store.write] using h
  | cons f m ih =>
    obtain ⟨b, u⟩ := f
    simp only [Store.write] at h
    split at h
    · simpa using h
    · split at h
      · rcases List.mem_cons.1 h with h | h
        · exact .inl h
        · exact .inr (List.mem_cons_of_mem _ h)
      · rcases List.mem_cons.1 h with h | h
        · exact .inr (h ▸ List.mem_cons_self)
        · exact (ih h).imp_right (List.mem_cons_of_mem _)

/-- A write below the capacity keeps a buffer within it. -/
theorem Memory.within_write {cap a : Nat} (ha : a < cap) (v : Byte) {m : Memory} (h : m.within cap = true) :
    Memory.within cap (Store.write a v m) = true := by
  simp only [Memory.within, List.all_eq_true, decide_eq_true_eq] at h ⊢
  intro e he
  rcases Store.mem_write he with rfl | he
  · exact ha
  · exact h e he

/-- The memory after reset is canonical. -/
theorem reset_memory_wf : State.reset.ibuf.wf = true ∧ State.reset.obuf.wf = true ∧ State.reset.dbuf.wf = true := by
  decide

end Sys2Proof.Machine
end

