-- ==== Sys2Proof/Laws/Ops.lean ====
section
/-! SUPPORT. What each shared operation can do, said once: emission, additions to the table, the table reset, operands
that nothing has written, the meanings in terms of the writes they are made of. -/

namespace Sys2Proof.Machine

/-! ## Cells -/

/-- A written cell reads as what was written, an unwritten one as the free byte of its space's epoch. -/
theorem cell_eq (s : State) (sp : Space) (a : Nat) :
    s.cell sp a = (Store.read a (s.buf sp)).getD (Config.unwrittenByte sp (s.spaceEpoch sp) a) := by
  unfold State.cell
  cases Store.read a (s.buf sp) <;> rfl

@[simp] theorem cell_setOutput (m : Memory) (n : BitVec 32) (s : State) (a : Nat) :
    (setOutput m n s).cell .obuf a = (Store.read a m).getD (Config.unwrittenByte .obuf s.epoch a) := by
  rw [cell_eq]; rfl

theorem cell_obuf (s : State) (a : Nat) :
    s.cell .obuf a = (Store.read a s.obuf).getD (Config.unwrittenByte .obuf s.epoch a) := cell_eq s .obuf a

/-! ## Emission -/

theorem emit_nil (s : State) : emit [] s = s := rfl

theorem emit_cons (b : Byte) (str : List Byte) (s : State) : emit (b :: str) s = emit str (emitIndex b s) := rfl

/-- Emission writes OBUF and OCNT and nothing else. -/
theorem emit_writes_output (str : List Byte) (s : State) : ∃ m n, emit str s = setOutput m n s := by
  induction str generalizing s with
  | nil => exact ⟨s.obuf, s.ocnt, rfl⟩
  | cons b str ih =>
    rw [emit_cons]
    obtain ⟨m, n, h⟩ := ih (emitIndex b s)
    rw [h]
    unfold emitIndex
    split
    · exact ⟨m, n, rfl⟩
    · exact ⟨m, n, rfl⟩

/-- One index stored: OCNT grows by one. -/
theorem emitIndex_ocnt (b : Byte) (s : State) (h : s.ocnt.toNat < s.expect.toNat) :
    (emitIndex b s).ocnt.toNat = s.ocnt.toNat + 1 := by
  have := s.expect.isLt
  simp only [emitIndex, h, if_true, setOutput_ocnt]
  change (s.ocnt.toNat + 1) % 2 ^ 32 = _
  omega

/-- What emission does (41_lzw_codes.md R129, R130): the clipped string at OCNT, and no other cell. -/
theorem emit_stored (str : List Byte) (s : State) : stored str s (emit str s) := by
  induction str generalizing s with
  | nil =>
    refine ⟨?_, ?_, ?_⟩
    · simp only [emit_nil, List.length_nil]; omega
    · intro j b h; simp at h
    · intro a _; rfl
  | cons b str ih =>
    rw [emit_cons]
    by_cases h : s.ocnt.toNat < s.expect.toNat
    · have ho := emitIndex_ocnt b s h
      have hx : (emitIndex b s).expect = s.expect := by unfold emitIndex; split <;> rfl
      obtain ⟨h1, h2, h3⟩ := ih (emitIndex b s)
      rw [ho, hx] at h1 h2 h3
      have hc : ∀ a, a ≠ s.ocnt.toNat → (emitIndex b s).cell .obuf a = s.cell .obuf a := by
        intro a ha
        simp only [emitIndex, h, if_true, cell_obuf, setOutput_obuf, setOutput_epoch, Store.read_write_other ha]
      refine ⟨?_, ?_, ?_⟩
      · rw [h1, List.length_cons]; omega
      · intro j c hj hlt
        cases j with
        | zero =>
          simp only [List.getElem?_cons_zero, Option.some.injEq] at hj
          subst hj
          rw [Nat.add_zero, h3 _ (.inl (by omega))]
          simp [emitIndex, h]
        | succ j =>
          rw [List.getElem?_cons_succ] at hj
          have := h2 j c hj (by omega)
          rwa [show s.ocnt.toNat + (j + 1) = s.ocnt.toNat + 1 + j by omega]
      · intro a ha
        rw [List.length_cons] at ha
        rw [h3 a (by omega), hc a (by omega)]
    · have he : emitIndex b s = s := by simp [emitIndex, h]
      rw [he]
      obtain ⟨h1, h2, h3⟩ := ih s
      refine ⟨?_, ?_, ?_⟩
      · rw [h1, List.length_cons]; omega
      · intro j c _ hlt; omega
      · intro a ha
        apply h3
        rw [List.length_cons] at ha
        omega

/-! ## Additions to the table -/

/-- Add with room in the table (41_lzw_codes.md R132, R133). -/
theorem addEntry_room {s : State} (h : s.next.toNat < 4096) (p : Code) (b : Byte) :
    addEntry p b s = setCodesize
      (if s.next.toNat + 1 = 2 ^ s.codesize.toNat ∧ s.codesize.toNat < 12 then s.codesize + 1 else s.codesize)
      (setTable (Store.write s.next.toNat ⟨some p, b⟩ s.tab) (s.next + 1) s) := by
  have hn : (s.next + 1).toNat = s.next.toNat + 1 := by
    change (s.next.toNat + 1) % 2 ^ 13 = _
    omega
  simp only [addEntry, h, if_true, grow, setTable_next, setTable_codesize, hn]
  split <;> rfl

/-- Add with a full table: nothing at all (41_lzw_codes.md R132). -/
theorem addEntry_full {s : State} (h : ¬ s.next.toNat < 4096) (p : Code) (b : Byte) : addEntry p b s = s := by
  simp [addEntry, h]

/-- An addition writes TAB, NEXT and CODESIZE and nothing else. -/
theorem addEntry_writes (p : Code) (b : Byte) (s : State) :
    ∃ w t n, addEntry p b s = setCodesize w (setTable t n s) := by
  by_cases h : s.next.toNat < 4096
  · exact ⟨_, _, _, addEntry_room h p b⟩
  · exact ⟨s.codesize, s.tab, s.next, addEntry_full h p b⟩

/-! ## The table reset -/

theorem read_literalEntries (clear k : Nat) :
    Store.read k (literalEntries clear) = if k < clear then some ⟨none, BitVec.ofNat 8 k⟩ else none := by
  have key : ∀ (l : List Nat), Store.read k (l.map fun j => (j, (⟨none, BitVec.ofNat 8 j⟩ : TabEntry)))
      = if k ∈ l then some ⟨none, BitVec.ofNat 8 k⟩ else none := by
    intro l
    induction l with
    | nil => rfl
    | cons j l ih =>
      simp only [List.map_cons, Store.read, List.mem_cons]
      by_cases hj : k = j
      · simp [hj]
      · simp [hj, ih]
  simpa [literalEntries] using key (List.range clear)

theorem Store.read_append {α : Type} (k : Nat) (m m' : List (Nat × α)) :
    Store.read k (m ++ m') = (Store.read k m).or (Store.read k m') := by
  induction m with
  | nil => simp [Store.read]
  | cons e m ih =>
    obtain ⟨b, u⟩ := e
    simp only [List.cons_append, Store.read]
    split
    · simp
    · exact ih

theorem Store.read_filter_ge {α : Type} (clear k : Nat) (m : List (Nat × α)) :
    Store.read k (m.filter fun e => decide (clear ≤ e.1)) = if clear ≤ k then Store.read k m else none := by
  induction m with
  | nil => simp [Store.read]
  | cons e m ih =>
    obtain ⟨b, u⟩ := e
    by_cases hb : clear ≤ b
    · simp only [List.filter_cons, hb, decide_true, if_true, Store.read, ih]
      by_cases hk : k = b
      · simp [hk, hb]
      · simp [hk]
    · simp only [List.filter_cons, hb, decide_false, Bool.false_eq_true, if_false, Store.read, ih]
      by_cases hk : k = b
      · subst hk; simp [hb]
      · simp [hk]

/-- The table after a reset (10_state.md R41): the literal entries below CLEARCODE, the old entries from there on. -/
theorem read_withLiterals (clear k : Nat) (t : Table) :
    Store.read k (withLiterals clear t)
      = if k < clear then some ⟨none, BitVec.ofNat 8 k⟩ else Store.read k t := by
  rw [withLiterals, Store.read_append, read_literalEntries, Store.read_filter_ge]
  by_cases h : k < clear
  · simp [h]
  · simp [h, Nat.le_of_not_lt h]

/-! ## Operands that nothing has written -/

theorem mem_stillUnspec (r : RegName) (rs l : List RegName) : r ∈ stillUnspec rs l ↔ r ∈ l ∧ r ∉ rs := by
  simp [stillUnspec]

theorem written_iff (s : State) (rs : List RegName) : s.written rs = true ↔ ∀ r, r ∈ rs → r ∉ s.unspec := by
  simp [State.written]

/-- A register that is written holds its stored value. -/
theorem view_written {w : Nat} {s : State} {r : RegName} (h : r ∉ s.unspec) (v : BitVec w) : s.view r v = v := by
  simp [State.view, h]

/-- Everything a command that reads operands can answer, the busy case apart (43_host_commands.md R182, R183). -/
theorem admitted_next {fits : State → Bool} {accept : State → State} {s settled t : State} (hb : s.busy = false)
    (h : admitted fits accept s settled = .next t) : fits settled = true ∧ t = accept settled := by
  unfold admitted at h
  rw [hb] at h
  cases hf : fits settled <;> simp_all

/-- A command whose operands fit is accepted. -/
theorem admitted_accepts {fits : State → Bool} {accept : State → State} {s settled : State} (hb : s.busy = false)
    (hf : fits settled = true) : admitted fits accept s settled = .next (accept settled) := by
  simp [admitted, hb, hf]

/-- Where every operand of DECODE is written, the command finds the state as it is. -/
theorem settleDecode_written {s : State} (h : s.written decodeOperands = true) :
    settleDecode s = { s with unspec := stillUnspec decodeOperands s.unspec } := by
  rw [written_iff] at h
  simp only [settleDecode, view_written (h .mincs (by decide)), view_written (h .expect (by decide)),
    view_written (h .ilen (by decide))]

/-- Where every operand of DEINT is written, the command finds the state as it is. -/
theorem settleDeint_written {s : State} (h : s.written deintOperands = true) :
    settleDeint s = { s with unspec := stillUnspec deintOperands s.unspec } := by
  rw [written_iff] at h
  simp only [settleDeint, view_written (h .width (by decide)), view_written (h .height (by decide)),
    view_written (h .ocnt (by decide))]

/-- A register among those just written holds its stored value. -/
theorem view_of_stillUnspec {w : Nat} {s : State} {r : RegName} {rs l : List RegName}
    (h : s.unspec = stillUnspec rs l) (hr : r ∈ rs) (v : BitVec w) : s.view r v = v :=
  view_written (by rw [h, mem_stillUnspec]; exact fun hh => hh.2 hr) v

/-- A value cut to w bits is below 2^w, whatever it is (10_state.md R45). -/
theorem cut_lt (w : Nat) (v : BitVec 35) : ((v.setWidth w).setWidth 35).toNat < 2 ^ w := by
  rw [BitVec.toNat_setWidth, BitVec.toNat_setWidth]
  exact Nat.lt_of_le_of_lt (Nat.mod_le _ _) (Nat.mod_lt _ (Nat.two_pow_pos w))

/-! ## Whose turn it is -/

/-- On the engine's turn a step is the engine's step. -/
theorem step_engineTurn {s u : State} (h : engineTurn s u) : step s = engineStep u := by
  obtain ⟨h, rfl⟩ | ⟨rest, h, rfl⟩ | ⟨⟨rest, h⟩, hb, rfl⟩ := h
  · simp [step, machineStep, h]
  · simp [step, machineStep, h]
  · simp [step, machineStep, h, hb]

/-! ## The meanings of the codes -/

/-- A present code: its writes, in order of the fields they touch. -/
theorem presentCode_writes (c : Code) (b : Byte) (str : List Byte) (s : State) :
    ∃ m n w t x, presentCode c b str s
      = setPrev (prevOf c) (setCodesize w (setTable t x (setOutput m n (advance s)))) := by
  obtain ⟨m, n, he⟩ := emit_writes_output str (advance s)
  by_cases hp : (setOutput m n (advance s)).prevV = true
  · obtain ⟨w, t, x, ha⟩ := addEntry_writes (setOutput m n (advance s)).prevCode b (setOutput m n (advance s))
    exact ⟨m, n, w, t, x, by simp only [presentCode, he, hp, if_true, ha]⟩
  · exact ⟨m, n, s.codesize, s.tab, s.next, by
      simp only [presentCode, he, hp, Bool.false_eq_true, if_false]; rfl⟩

/-- The self-reference: its writes. -/
theorem selfReference_writes (c : Code) (b : Byte) (str : List Byte) (s : State) :
    ∃ m n w t x, selfReference c b str s
      = setPrev (prevOf c) (setOutput m n (setCodesize w (setTable t x (advance s)))) := by
  obtain ⟨w, t, x, ha⟩ := addEntry_writes s.prevCode b (advance s)
  obtain ⟨m, n, he⟩ := emit_writes_output (str ++ [b]) (addEntry s.prevCode b (advance s))
  exact ⟨m, n, w, t, x, by rw [selfReference, he, ha]⟩

end Sys2Proof.Machine
end

