-- ==== Sys2Proof/Laws/PerInstr.lean ====
section
/-! SUPPORT. Statements made per instruction. EncodedWidth: an instruction's code word has exactly CODESIZE bits
(30_encoding.md R90); a command has no code word. -/

namespace Sys2Proof.Laws.EncodedWidth

/-- A code word of the instruction has CODESIZE bits, and it is encoded either as a code or as a command. -/
def Statement (i : Instr) : Prop :=
  (∀ x bits, encode x i = .code bits → bits.length = x.codesize.toNat)
    ∧ ∀ x, (encodeCode x i).isSome = (encodeCtrl i).isNone

/-- What every constructor's lemma uses: the bits of a code are CODESIZE many. -/
theorem encode_length (i : Instr) (x : CodeContext) (bits : List Bool) (h : encode x i = .code bits) :
    bits.length = x.codesize.toNat := by
  unfold encode at h
  split at h
  · cases h
    simp [codeBits]
  · cases h

theorem lit (k) : Statement (.lit k) := ⟨encode_length _, fun _ => rfl⟩
theorem clr : Statement (.clr) := ⟨encode_length _, fun _ => rfl⟩
theorem eoi : Statement (.eoi) := ⟨encode_length _, fun _ => rfl⟩
theorem ref (k) : Statement (.ref k) := ⟨encode_length _, fun _ => rfl⟩
theorem kwk (k) : Statement (.kwk k) := ⟨encode_length _, fun _ => rfl⟩
theorem inv (k) : Statement (.inv k) := ⟨encode_length _, fun _ => rfl⟩
theorem litM2 (k) : Statement (.litM2 k) := ⟨encode_length _, fun _ => rfl⟩
theorem clrM2 : Statement (.clrM2) := ⟨encode_length _, fun _ => rfl⟩
theorem eoiM2 : Statement (.eoiM2) := ⟨encode_length _, fun _ => rfl⟩
theorem litM3 (k) : Statement (.litM3 k) := ⟨encode_length _, fun _ => rfl⟩
theorem clrM3 : Statement (.clrM3) := ⟨encode_length _, fun _ => rfl⟩
theorem eoiM3 : Statement (.eoiM3) := ⟨encode_length _, fun _ => rfl⟩
theorem litM4 (k) : Statement (.litM4 k) := ⟨encode_length _, fun _ => rfl⟩
theorem clrM4 : Statement (.clrM4) := ⟨encode_length _, fun _ => rfl⟩
theorem eoiM4 : Statement (.eoiM4) := ⟨encode_length _, fun _ => rfl⟩
theorem litM5 (k) : Statement (.litM5 k) := ⟨encode_length _, fun _ => rfl⟩
theorem clrM5 : Statement (.clrM5) := ⟨encode_length _, fun _ => rfl⟩
theorem eoiM5 : Statement (.eoiM5) := ⟨encode_length _, fun _ => rfl⟩
theorem litM6 (k) : Statement (.litM6 k) := ⟨encode_length _, fun _ => rfl⟩
theorem clrM6 : Statement (.clrM6) := ⟨encode_length _, fun _ => rfl⟩
theorem eoiM6 : Statement (.eoiM6) := ⟨encode_length _, fun _ => rfl⟩
theorem litM7 (k) : Statement (.litM7 k) := ⟨encode_length _, fun _ => rfl⟩
theorem clrM7 : Statement (.clrM7) := ⟨encode_length _, fun _ => rfl⟩
theorem eoiM7 : Statement (.eoiM7) := ⟨encode_length _, fun _ => rfl⟩
theorem litM8 (k) : Statement (.litM8 k) := ⟨encode_length _, fun _ => rfl⟩
theorem clrM8 : Statement (.clrM8) := ⟨encode_length _, fun _ => rfl⟩
theorem eoiM8 : Statement (.eoiM8) := ⟨encode_length _, fun _ => rfl⟩
theorem decode : Statement (.decode) := ⟨encode_length _, fun _ => rfl⟩
theorem deint : Statement (.deint) := ⟨encode_length _, fun _ => rfl⟩
theorem clear : Statement (.clear) := ⟨encode_length _, fun _ => rfl⟩

end Sys2Proof.Laws.EncodedWidth
end

