-- ==== Sys2Proof/Tests/Slice0.lean ====
section
/-! SUPPORT. The model's own tests: ill-formed terms the checks refuse, every constructor's word written out from the spec,
one step of each instruction on a small state. Expected values are the spec's: the place is named above each test. The
theorems are elaborated one after the other, so that the package as one text does not wait in many threads at once. -/

namespace Sys2Proof.Tests

open Sys2Proof Sys2Proof.Machine

set_option Elab.async false

/-! ## Ill-formed terms -/

theorem test_wf_lit : (Instr.lit 256#12).wf = false ∧ (Instr.lit 255#12).wf = true := by decide
theorem test_wf_ref : (Instr.ref 5#12).wf = false ∧ (Instr.ref 6#12).wf = true := by decide
theorem test_wf_kwk : (Instr.kwk 5#12).wf = false ∧ (Instr.kwk 6#12).wf = true := by decide
theorem test_wf_inv : (Instr.inv 6#12).wf = false ∧ (Instr.inv 7#12).wf = true := by decide

/-- MINCS = 2 right after a table reset (30_encoding.md R94 b): NEXT = 6. -/
def x2 : CodeContext := ⟨2#8, 3#4, 6#13, 4#9, 5#9⟩
/-- MINCS = 2 with three learned entries: NEXT = 9, width 4. -/
def x2grown : CodeContext := ⟨2#8, 4#4, 9#13, 4#9, 5#9⟩
/-- Registers no DECODE leaves: MINCS = 0 beside CLEARCODE = 4. No exact row applies. -/
def x0 : CodeContext := ⟨0#8, 3#4, 6#13, 4#9, 5#9⟩

theorem test_ordered : x2.ordered = true ∧ ({ x2 with next := 5#13 } : CodeContext).ordered = false
    ∧ ({ x2 with endcode := 6#9 } : CodeContext).ordered = false := by decide
theorem test_holds : x2.holds 7#12 = true ∧ x2.holds 8#12 = false
    ∧ ({ x2 with codesize := 13#4 } : CodeContext).holds 7#12 = false := by decide
theorem test_inClass : (Instr.lit 3#12).inClass x0 = true ∧ (Instr.lit 4#12).inClass x0 = false
    ∧ (Instr.lit 3#12).inClass x2 = false ∧ (Instr.litM2 3#2).inClass x2 = true ∧ (Instr.litM3 3#3).inClass x2 = false
    ∧ (Instr.ref 6#12).inClass x2 = false ∧ (Instr.ref 6#12).inClass x2grown = true
    ∧ (Instr.kwk 6#12).inClass x2 = true ∧ (Instr.kwk 7#12).inClass x2 = false
    ∧ (Instr.inv 7#12).inClass x2 = true ∧ (Instr.inv 6#12).inClass x2 = false
    ∧ Instr.decode.inClass x2 = false := by decide

/-! ## Words written out from the spec -/

/-- 30_encoding.md R93, R94 (b): after a clear with MINCS = 2 the 3-bit values 6 and 7 are KWK and INV; R93: with
NEXT = 9 the 4-bit value 8 is REF. -/
theorem test_decode_kwk : decodeAt x2 [0x06#8] 0 = .ok (.kwk 6#12) := by decide
theorem test_decode_inv : decodeAt x2 [0x07#8] 0 = .ok (.inv 7#12) := by decide
theorem test_decode_ref : decodeAt x2grown [0x08#8] 0 = .ok (.ref 8#12) := by decide
/-- 30_encoding.md R93 where no exact row applies. -/
theorem test_decode_lit : decodeAt x0 [0x03#8] 0 = .ok (.lit 3#12) := by decide
theorem test_decode_clr : decodeAt x0 [0x04#8] 0 = .ok .clr := by decide
theorem test_decode_eoi : decodeAt x0 [0x05#8] 0 = .ok .eoi := by decide

/-- 30_encoding.md R95, MINCS = 2, first width 3: the literal 3, the clear code 4, the end code 5. -/
theorem test_decode_litM2 : decodeAt ⟨2#8, 3#4, 6#13, 4#9, 5#9⟩ [0x03#8, 0x00#8] 0 = .ok (.litM2 3#2) := by decide
theorem test_decode_clrM2 : decodeAt ⟨2#8, 3#4, 6#13, 4#9, 5#9⟩ [0x04#8, 0x00#8] 0 = .ok .clrM2 := by decide
theorem test_decode_eoiM2 : decodeAt ⟨2#8, 3#4, 6#13, 4#9, 5#9⟩ [0x05#8, 0x00#8] 0 = .ok .eoiM2 := by decide

/-- 30_encoding.md R95, MINCS = 3, first width 4: the literal 7, the clear code 8, the end code 9. -/
theorem test_decode_litM3 : decodeAt ⟨3#8, 4#4, 10#13, 8#9, 9#9⟩ [0x07#8, 0x00#8] 0 = .ok (.litM3 7#3) := by decide
theorem test_decode_clrM3 : decodeAt ⟨3#8, 4#4, 10#13, 8#9, 9#9⟩ [0x08#8, 0x00#8] 0 = .ok .clrM3 := by decide
theorem test_decode_eoiM3 : decodeAt ⟨3#8, 4#4, 10#13, 8#9, 9#9⟩ [0x09#8, 0x00#8] 0 = .ok .eoiM3 := by decide

/-- 30_encoding.md R95, MINCS = 4, first width 5: the literal 15, the clear code 16, the end code 17. -/
theorem test_decode_litM4 : decodeAt ⟨4#8, 5#4, 18#13, 16#9, 17#9⟩ [0x0F#8, 0x00#8] 0 = .ok (.litM4 15#4) := by decide
theorem test_decode_clrM4 : decodeAt ⟨4#8, 5#4, 18#13, 16#9, 17#9⟩ [0x10#8, 0x00#8] 0 = .ok .clrM4 := by decide
theorem test_decode_eoiM4 : decodeAt ⟨4#8, 5#4, 18#13, 16#9, 17#9⟩ [0x11#8, 0x00#8] 0 = .ok .eoiM4 := by decide

/-- 30_encoding.md R95, MINCS = 5, first width 6: the literal 31, the clear code 32, the end code 33. -/
theorem test_decode_litM5 : decodeAt ⟨5#8, 6#4, 34#13, 32#9, 33#9⟩ [0x1F#8, 0x00#8] 0 = .ok (.litM5 31#5) := by decide
theorem test_decode_clrM5 : decodeAt ⟨5#8, 6#4, 34#13, 32#9, 33#9⟩ [0x20#8, 0x00#8] 0 = .ok .clrM5 := by decide
theorem test_decode_eoiM5 : decodeAt ⟨5#8, 6#4, 34#13, 32#9, 33#9⟩ [0x21#8, 0x00#8] 0 = .ok .eoiM5 := by decide

/-- 30_encoding.md R95, MINCS = 6, first width 7: the literal 63, the clear code 64, the end code 65. -/
theorem test_decode_litM6 : decodeAt ⟨6#8, 7#4, 66#13, 64#9, 65#9⟩ [0x3F#8, 0x00#8] 0 = .ok (.litM6 63#6) := by decide
theorem test_decode_clrM6 : decodeAt ⟨6#8, 7#4, 66#13, 64#9, 65#9⟩ [0x40#8, 0x00#8] 0 = .ok .clrM6 := by decide
theorem test_decode_eoiM6 : decodeAt ⟨6#8, 7#4, 66#13, 64#9, 65#9⟩ [0x41#8, 0x00#8] 0 = .ok .eoiM6 := by decide

/-- 30_encoding.md R95, MINCS = 7, first width 8: the literal 127, the clear code 128, the end code 129. -/
theorem test_decode_litM7 : decodeAt ⟨7#8, 8#4, 130#13, 128#9, 129#9⟩ [0x7F#8, 0x00#8] 0 = .ok (.litM7 127#7) := by decide
theorem test_decode_clrM7 : decodeAt ⟨7#8, 8#4, 130#13, 128#9, 129#9⟩ [0x80#8, 0x00#8] 0 = .ok .clrM7 := by decide
theorem test_decode_eoiM7 : decodeAt ⟨7#8, 8#4, 130#13, 128#9, 129#9⟩ [0x81#8, 0x00#8] 0 = .ok .eoiM7 := by decide

/-- 30_encoding.md R95, MINCS = 8, first width 9: the literal 255, the clear code 256, the end code 257. -/
theorem test_decode_litM8 : decodeAt ⟨8#8, 9#4, 258#13, 256#9, 257#9⟩ [0xFF#8, 0x00#8] 0 = .ok (.litM8 255#8) := by decide
theorem test_decode_clrM8 : decodeAt ⟨8#8, 9#4, 258#13, 256#9, 257#9⟩ [0x00#8, 0x01#8] 0 = .ok .clrM8 := by decide
theorem test_decode_eoiM8 : decodeAt ⟨8#8, 9#4, 258#13, 256#9, 257#9⟩ [0x01#8, 0x01#8] 0 = .ok .eoiM8 := by decide

/-- 30_encoding.md R97. -/
theorem test_decode_decode : decodeCtrl 0x00000001#32 = .ok .decode := by decide
theorem test_decode_deint : decodeCtrl 0x00000002#32 = .ok .deint := by decide
theorem test_decode_clear : decodeCtrl 0x00000004#32 = .ok .clear := by decide
/-- 95_test_vectors.md H11. -/
theorem test_decode_reserved : decodeCtrl 3#32 = .rejected .reservedCommand
    ∧ decodeCtrl 0x80000001#32 = .rejected .reservedCommand := by decide
/-- 95_test_vectors.md F3, F4, F6, F8, F9: fetches across byte boundaries. -/
theorem test_fetch : fetchValue [0x44#8, 0x02#8, 0x05#8] 6 3 = 1 ∧ fetchValue [0xAB#8, 0xCD#8] 4 9 = 218
    ∧ fetchValue [0xE0#8, 0xFF#8, 0x01#8] 5 12 = 4095 ∧ fetchValue [0x12#8, 0x34#8, 0x56#8] 7 12 = 3176
    ∧ fetchValue [0x80#8, 0x00#8, 0x0F#8] 7 12 = 3585 := by decide
/-- 95_test_vectors.md V1: CLR, LIT 0, LIT 1, LIT 1, LIT 0, END assemble to 44 02 05. -/
theorem test_assemble : assemble 2 [.clr, .lit 0, .lit 1, .lit 1, .lit 0, .eoi] = [0x44#8, 0x02#8, 0x05#8] := by
  decide +kernel
/-- 95_test_vectors.md V3. -/
theorem test_assemble_kwk : assemble 2 [.clr, .lit 1, .kwk, .kwk, .eoi] = [0x8C#8, 0x5F#8] := by decide +kernel
/-- 95_test_vectors.md C6, C7, C9, C11: sub-block chains. -/
theorem test_chain : stripChain 9 [0x02#8, 0x44#8, 0x5C#8, 0x01#8, 0xAA#8, 0x00#8] = [0x44#8, 0x5C#8, 0xAA#8]
    ∧ stripChain 9 [0x02#8, 0x44#8, 0x5C#8, 0x00#8, 0xFF#8, 0xFF#8] = [0x44#8, 0x5C#8]
    ∧ stripChain 9 [0x02#8, 0x44#8] = [0x44#8] ∧ stripChain 9 [0x00#8, 0x44#8, 0x5C#8] = [] := by decide

/-! ## One step of each instruction -/

/-- What holds of the next state, false where there is none. -/
def after (o : Host.Outcome State Fault Refusal) (p : State → Bool) : Bool :=
  match o with
  | .next t => p t
  | .fault _ => false
  | .refused _ => false

/-- A DECODE of 44 02 05 with MINCS = 2 after its first code, CLR (40_bit_cursor.md R118). -/
def start : State :=
  { State.reset with
    status := 1, synced := false, mincs := 2, expect := 100, ilen := 3, bitpos := 3, codesize := 3, next := 6, clearcode := 4, endcode := 5,
    unspec := [], ibuf := [(0, 0x44), (1, 0x02), (2, 0x05)], tab := literalEntries 4 }

/-- The same after LIT 0: PREV = (1, 0), one index out. -/
def withPrev : State := { start with bitpos := 6, ocnt := 1, obuf := [(0, 0)], prev := prevOf 0 }

/-- After LIT 1 as well: TAB[6] = (0, 1), NEXT = 7, PREV = (1, 1). -/
def learned : State :=
  { start with
    bitpos := 9, ocnt := 2, obuf := [(0, 0), (1, 1)], prev := prevOf 1, next := 7,
    tab := literalEntries 4 ++ [(6, ⟨some 0, 1⟩)] }

/-- NEXT = 9, CODESIZE = 4 (the example of 41_lzw_codes.md R138). -/
def grown : State :=
  { learned with
    next := 9, codesize := 4, bitpos := 16,
    tab := literalEntries 4 ++ [(6, ⟨some 0, 1⟩), (7, ⟨some 1, 1⟩), (8, ⟨some 1, 0⟩)] }

/-- A block at rest, every operand written: the operands of 95_test_vectors.md V1a and I8. -/
def atRest : State :=
  { State.reset with
    unspec := [], mincs := 2, expect := 4, ilen := 3, ibuf := [(0, 0x44), (1, 0x02), (2, 0x05)], width := 2, height := 5,
    ocnt := 7, obuf := [(0, 10), (1, 11), (2, 12), (3, 13), (4, 14), (5, 15), (6, 16)] }

/-- 41_lzw_codes.md R134, example: NEXT = 6, PREV = (1, 0), LIT 1 stores 1, TAB[6] = (0, 1), NEXT = 7, PREV = (1, 1). -/
def literalOne (t : State) : Bool :=
  t.cell .obuf 1 == 1#8 && t.ocnt == 2#32 && Store.read 6 t.tab == some ⟨some 0, 1⟩ && t.next == 7#13
    && t.prev == 0x1001#13 && t.bitpos == 9#35

/-- 41_lzw_codes.md R138, example: NEXT = 6, CODESIZE = 3, no previous string. -/
def cleared (t : State) : Bool := t.next == 6#13 && t.codesize == 3#4 && t.prev == 0#13 && t.bitpos == 20#35 && t.ocnt == 2#32

theorem test_lit : after (exec (.lit 1) withPrev) literalOne = true := by decide +kernel
theorem test_clr : after (exec .clr grown) cleared = true := by decide +kernel
/-- 95_test_vectors.md V7: END with OCNT < EXPECT. -/
theorem test_eoi : after (exec .eoi start) (fun t => t.status == 0x4A#32 && t.bitpos == 6#35) = true := by decide +kernel
/-- 41_lzw_codes.md R135, example: stores 0, 1, TAB[7] = (1, 0), NEXT = 8, CODESIZE 3 to 4, PREV = (1, 6). -/
theorem test_ref : after (exec (.ref 6) learned) (fun t =>
    t.cell .obuf 2 == 0#8 && t.cell .obuf 3 == 1#8 && t.ocnt == 4#32 && Store.read 7 t.tab == some ⟨some 1, 0⟩
      && t.next == 8#13 && t.codesize == 4#4 && t.prev == 0x1006#13) = true := by decide +kernel
/-- The model's stop: a code that is not present has no string. -/
theorem test_ref_absent : exec (.ref 7) learned = .fault .noString := by rfl
/-- 95_test_vectors.md V15: value 258 after LIT 255, here with PREV = (1, 0): TAB[6] = (0, 0), 0 0 stored. -/
theorem test_kwk : after (exec (.kwk 6) withPrev) (fun t =>
    t.cell .obuf 1 == 0#8 && t.cell .obuf 2 == 0#8 && t.ocnt == 3#32 && Store.read 6 t.tab == some ⟨some 0, 0⟩
      && t.next == 7#13 && t.prev == 0x1006#13) = true := by decide +kernel
/-- 95_test_vectors.md V8: KWK after CLR. -/
theorem test_kwk_fault : after (exec (.kwk 6) start) (fun t =>
    t.status == 0x204#32 && t.ecode == 6#12 && t.epos == 3#35 && t.bitpos == 6#35 && t.next == 6#13) = true := by
  decide +kernel
/-- 95_test_vectors.md V10: INV after CLR, LIT 0. -/
theorem test_inv : after (exec (.inv 7) withPrev) (fun t =>
    t.status == 0x404#32 && t.ecode == 7#12 && t.epos == 6#35 && t.bitpos == 9#35 && t.ocnt == 1#32) = true := by
  decide +kernel

theorem test_litM2 : after (exec (.litM2 1) withPrev) literalOne = true := by decide +kernel
theorem test_clrM2 : after (exec .clrM2 grown) cleared = true := by decide +kernel
theorem test_eoiM2 : after (exec .eoiM2 start) (fun t => t.status == 0x4A#32 && t.bitpos == 6#35) = true := by
  decide +kernel

theorem test_litM3 : after (exec (.litM3 1) withPrev) literalOne = true := by decide +kernel
theorem test_clrM3 : after (exec .clrM3 grown) cleared = true := by decide +kernel
theorem test_eoiM3 : after (exec .eoiM3 start) (fun t => t.status == 0x4A#32 && t.bitpos == 6#35) = true := by
  decide +kernel

theorem test_litM4 : after (exec (.litM4 1) withPrev) literalOne = true := by decide +kernel
theorem test_clrM4 : after (exec .clrM4 grown) cleared = true := by decide +kernel
theorem test_eoiM4 : after (exec .eoiM4 start) (fun t => t.status == 0x4A#32 && t.bitpos == 6#35) = true := by
  decide +kernel

theorem test_litM5 : after (exec (.litM5 1) withPrev) literalOne = true := by decide +kernel
theorem test_clrM5 : after (exec .clrM5 grown) cleared = true := by decide +kernel
theorem test_eoiM5 : after (exec .eoiM5 start) (fun t => t.status == 0x4A#32 && t.bitpos == 6#35) = true := by
  decide +kernel

theorem test_litM6 : after (exec (.litM6 1) withPrev) literalOne = true := by decide +kernel
theorem test_clrM6 : after (exec .clrM6 grown) cleared = true := by decide +kernel
theorem test_eoiM6 : after (exec .eoiM6 start) (fun t => t.status == 0x4A#32 && t.bitpos == 6#35) = true := by
  decide +kernel

theorem test_litM7 : after (exec (.litM7 1) withPrev) literalOne = true := by decide +kernel
theorem test_clrM7 : after (exec .clrM7 grown) cleared = true := by decide +kernel
theorem test_eoiM7 : after (exec .eoiM7 start) (fun t => t.status == 0x4A#32 && t.bitpos == 6#35) = true := by
  decide +kernel

theorem test_litM8 : after (exec (.litM8 1) withPrev) literalOne = true := by decide +kernel
theorem test_clrM8 : after (exec .clrM8 grown) cleared = true := by decide +kernel
theorem test_eoiM8 : after (exec .eoiM8 start) (fun t => t.status == 0x4A#32 && t.bitpos == 6#35) = true := by
  decide +kernel

/-- 43_host_commands.md R184: an accepted DECODE; 95_test_vectors.md V14: MINCS = 9. -/
theorem test_decode : after (exec .decode atRest) (fun t =>
    t.status == 1#32 && t.next == 6#13 && t.codesize == 3#4 && t.ocnt == 0#32 && t.bitpos == 0#35) = true := by
  decide +kernel
theorem test_decode_bad : after (exec .decode { atRest with mincs := 9 }) (fun t =>
    t.status == 0x604#32 && t.ocnt == 7#32) = true := by decide +kernel
/-- 95_test_vectors.md I8 (partial input) and I9 (no-op). -/
theorem test_deint : after (exec .deint atRest) (fun t =>
    t.status == 0x102#32 && t.dlen == 10#32
      && t.dbuf == [(0, 10), (1, 11), (2, 16), (4, 14), (5, 15), (8, 12), (9, 13)]) = true := by decide +kernel
theorem test_deint_noop : after (exec .deint { atRest with ocnt := 1 }) (fun t =>
    t.status == 0x182#32 && t.dlen == 1#32 && t.dbuf == [(0, 10)]) = true := by decide +kernel
/-- 95_test_vectors.md H10. -/
theorem test_clear : after (exec .clear { atRest with status := 0x404, ecode := 7 }) (fun t =>
    t.status == 0#32 && t.ecode == 7#12) = true := by decide +kernel
/-- 43_host_commands.md R187: a command while busy has no effect. -/
theorem test_clear_busy : exec .clear start = .next start := by rfl

/-! ## The step -/

/-- 95_test_vectors.md X3 and X1: COUNT before TRUNC; TRUNC with 2 bits left of 3. -/
theorem test_step_count : after (step { withPrev with expect := 1, bitpos := 24 }) (fun t => t.status == 0x12#32) = true := by
  decide +kernel
theorem test_step_trunc : after (step { withPrev with ilen := 1 }) (fun t => t.status == 0x62#32 && t.bitpos == 6#35)
    = true := by decide +kernel
/-- 40_bit_cursor.md R118, fetch 3: at bit 6 the code is LIT 1. -/
theorem test_step_fetch : after (step withPrev) literalOne = true := by decide +kernel
/-- 95_test_vectors.md H5, H6, H7: writes cut to the register's width. -/
theorem test_write_config : readRegister (hostWriteReg 2 0xFFFFFFFF atRest) 2 = 1 := by decide +kernel
theorem test_write_mincs : readRegister (hostWriteReg 3 0x1FF atRest) 3 = 0xFF := by decide +kernel
theorem test_write_width : readRegister (hostWriteReg 6 0x12345 atRest) 6 = 0x2345 := by decide +kernel
/-- 95_test_vectors.md H8, H9: read-only register, read-only buffer. -/
theorem test_write_readonly : hostWriteReg 10 5 atRest = atRest ∧ writeBuffer .dbuf 0 7 atRest = atRest := ⟨rfl, rfl⟩
/-- 70_reset_and_hazards.md R235: DECODE reads neither WIDTH, HEIGHT nor OCNT, which may be unwritten. -/
theorem test_step_decode_unwritten : after (exec .decode { atRest with unspec := [.width, .height, .ocnt] }) (fun t =>
    t.status == 1#32 && t.unspec == [.width, .height]) = true := by decide +kernel
/-- 70_reset_and_hazards.md R241 H-b: after a command the host reads OCNT as some value until it has read BUSY = 0. -/
theorem test_read_unsynced : (hostReadReg 8 { atRest with synced := false }).draws = 1
    ∧ (hostReadReg 8 (hostReadReg 1 { atRest with synced := false })).lastRead = some 7 := by decide +kernel
/-- Table words run as the first step after reset (log entry 19). -/
theorem test_first_clrM8 : decodeTableWord 16 0x100 = some .clrM8
    ∧ after (step (State.reset.withFetchWord 16 0x100)) (fun t => t.bitpos == 9#35) = true := by decide +kernel
theorem test_first_litM3 : decodeTableWord 16 0x007 = some (.litM3 7#3)
    ∧ after (step (State.reset.withFetchWord 16 0x007)) (fun t => t.cell .obuf 0 == 7#8) = true := by decide +kernel
theorem test_first_decode : decodeTableWord 32 1 = some .decode
    ∧ after (step (State.reset.withFetchWord 32 1)) (fun t => t.status == 1#32) = true := by decide +kernel

end Sys2Proof.Tests
end

