-- ==== Sys2Proof/Tests/Witnesses.lean ====
section
/-! SUPPORT. For every statement with hypotheses, a concrete state and operands that meet all of them together; for a
statement of several clauses one for each clause, at the ends of its range. -/

namespace Sys2Proof.Tests

open Sys2Proof Sys2Proof.Machine

set_option Elab.async false

/-- A chain-mode state with the given IBUF bytes. -/
def chainState (input : List Byte) : State :=
  { State.reset with
    config := 1, unspec := [], ilen := BitVec.ofNat 32 input.length, ibuf := input.mapIdx fun a b => (a, b) }

theorem witness_FetchFromThreeBytes : (12 : Nat) ≤ 12 := by decide

theorem witness_PayloadStripsFraming_bare : start.chain = false := by decide
theorem witness_PayloadStripsFraming_empty : (chainState []).chain = true ∧ (chainState []).inputBytes = [] := by
  decide +kernel
theorem witness_PayloadStripsFraming_terminator : (chainState [0#8, 0x44#8]).chain = true
    ∧ (chainState [0#8, 0x44#8]).inputBytes = 0#8 :: [0x44#8] := by decide +kernel
theorem witness_PayloadStripsFraming_block : (chainState [1#8, 0x44#8, 0#8]).chain = true ∧ (1#8 : Byte) ≠ 0#8
    ∧ [0x44#8].length = (1#8 : Byte).toNat
    ∧ (chainState [1#8, 0x44#8, 0#8]).inputBytes = 1#8 :: ([0x44#8] ++ [0#8]) := by decide +kernel
theorem witness_PayloadStripsFraming_cut : (chainState [2#8, 0x44#8]).chain = true ∧ (2#8 : Byte) ≠ 0#8
    ∧ [0x44#8].length < (2#8 : Byte).toNat ∧ (chainState [2#8, 0x44#8]).inputBytes = 2#8 :: [0x44#8] := by
  decide +kernel
theorem witness_FramedPayloadIsRecovered : (chainState [2#8, 0x44#8, 0x5C#8, 0#8, 0xFF#8]).chain = true
    ∧ legalCut [[0x44#8, 0x5C#8]] = true
    ∧ (chainState [2#8, 0x44#8, 0x5C#8, 0#8, 0xFF#8]).inputBytes = frameCut [[0x44#8, 0x5C#8]] ++ [0xFF#8] := by
  decide +kernel
/-- Two sub-blocks of one byte each, and the longest sub-block. -/
theorem witness_FramedPayloadIsRecovered_small : legalCut [[0x44#8], [0x5C#8]] = true
    ∧ legalCut [List.replicate 255 0#8] = true
    ∧ (chainState [1#8, 0x44#8, 1#8, 0x5C#8, 0#8]).inputBytes = frameCut [[0x44#8], [0x5C#8]] ++ [] := by
  decide +kernel
theorem witness_CutChainGivesInitialSegment : (chainState [2#8, 0x44#8]).chain = true
    ∧ legalCut [[0x44#8, 0x5C#8]] = true
    ∧ (chainState [2#8, 0x44#8]).inputBytes = (frameCut [[0x44#8, 0x5C#8]]).take 2 := by decide +kernel

theorem witness_ClassOfFetchedValue : x2grown.ordered = true
    ∧ (3#12 : Code).toNat < x2grown.clearcode.toNat ∧ (4#12 : Code).toNat = x2grown.clearcode.toNat
    ∧ (5#12 : Code).toNat = x2grown.endcode.toNat
    ∧ x2grown.clearcode.toNat + 2 ≤ (6#12 : Code).toNat ∧ (8#12 : Code).toNat < x2grown.next.toNat
    ∧ (9#12 : Code).toNat = x2grown.next.toNat ∧ x2grown.next.toNat < (10#12 : Code).toNat := by decide
theorem witness_FullTableNeverInvalid :
    ({ x2 with codesize := 12#4, next := 4096#13 } : CodeContext).ordered = true
    ∧ ({ x2 with codesize := 12#4, next := 4096#13 } : CodeContext).next.toNat = 4096 := by decide
theorem witness_DecodeOfEncodeIsIdentity_code : x2grown.ordered = true ∧ (Instr.ref 8#12).inClass x2grown = true
    ∧ (∀ c, encodeCode x2grown (.ref 8#12) = some c → x2grown.holds c = true)
    ∧ encode x2grown (.ref 8#12) = .code [false, false, false, true] := by
  refine ⟨by decide, by decide, fun c h => ?_, by decide⟩
  cases h
  decide
theorem witness_DecodeOfEncodeIsIdentity_literal : x2.ordered = true ∧ (Instr.litM2 3#2).inClass x2 = true
    ∧ (∀ c, encodeCode x2 (.litM2 3#2) = some c → x2.holds c = true)
    ∧ encode x2 (.litM2 3#2) = .code [true, true, false] := by
  refine ⟨by decide, by decide, fun c h => ?_, by decide⟩
  cases h
  decide
theorem witness_DecodeOfEncodeIsIdentity_command : encode x2 .deint = .ctrl 2#32 := by decide
theorem witness_EncodeOfDecodeIsIdentity : x2.ordered = true := by decide
theorem witness_OnlyThreeCommandValues : decodeCtrl 4#32 = .ok .clear := by decide

/-- The engine's turn in its three forms: no host move, the host lets the engine run, the host polls. -/
theorem witness_engineTurn_none : engineTurn withPrev withPrev := .inl ⟨rfl, rfl⟩
theorem witness_engineTurn_pass : engineTurn { withPrev with script := [.pass] } withPrev := .inr (.inl ⟨[], rfl, rfl⟩)
theorem witness_engineTurn_poll :
    engineTurn { withPrev with script := [.poll] } { withPrev with script := [.poll] } :=
  .inr (.inr ⟨⟨[], rfl⟩, rfl, rfl⟩)
/-- The other hypotheses hold under every host move. -/
theorem witness_StepRunsDecodedInstruction (l : List HostMove) :
    let s := { withPrev with script := l }
    s.busy = true ∧ s.opk = false ∧ s.ocnt.toNat < s.expect.toNat
    ∧ decodeAt s.context s.payload s.bitpos.toNat = .ok (.litM2 1#2) := by
  have h : withPrev.busy = true ∧ withPrev.opk = false ∧ withPrev.ocnt.toNat < withPrev.expect.toNat
      ∧ decodeAt withPrev.context withPrev.payload withPrev.bitpos.toNat = .ok (.litM2 1#2) := by decide +kernel
  exact h
theorem witness_StepRunsDecodedInstruction_act :
    ({ atRest with script := [.act (.readReg 3)] } : State).script = .act (.readReg 3) :: [] := by decide
theorem witness_StepRunsDecodedInstruction_command :
    ({ atRest with script := [.act (.writeReg 0 2)] } : State).script = .act (.writeReg 0 2) :: []
    ∧ decodeCtrl (BitVec.ofNat 32 2) = .ok .deint := by decide
theorem witness_EngineAtRestDoesNothing : atRest.busy = false ∧ engineTurn atRest atRest
    ∧ engineTurn { atRest with script := [.pass] } atRest := ⟨by decide, .inl ⟨rfl, rfl⟩, .inr (.inl ⟨[], rfl, rfl⟩)⟩
theorem witness_EngineAtRestDoesNothing_poll :
    let s := { atRest with script := [.poll] }
    s.busy = false ∧ s.script = .poll :: [] := by decide
theorem witness_CountHaltsFirst :
    let s := { withPrev with expect := 1 }
    engineTurn s s ∧ engineTurn { s with script := [.pass] } s
    ∧ engineTurn { s with script := [.poll] } { s with script := [.poll] }
    ∧ s.busy = true ∧ s.opk = false ∧ s.expect.toNat ≤ s.ocnt.toNat :=
  ⟨.inl ⟨rfl, rfl⟩, .inr (.inl ⟨[], rfl, rfl⟩), .inr (.inr ⟨⟨[], rfl⟩, rfl, rfl⟩), by decide, by decide, by decide⟩
theorem witness_TooFewBitsHaltTrunc :
    let s := { withPrev with ilen := 1 }
    engineTurn s s ∧ engineTurn { s with script := [.pass] } s
    ∧ engineTurn { s with script := [.poll] } { s with script := [.poll] }
    ∧ s.busy = true ∧ s.opk = false ∧ s.ocnt.toNat < s.expect.toNat
    ∧ 8 * s.payload.length - s.bitpos.toNat < s.codesize.toNat :=
  ⟨.inl ⟨rfl, rfl⟩, .inr (.inl ⟨[], rfl, rfl⟩), .inr (.inr ⟨⟨[], rfl⟩, rfl, rfl⟩), by decide, by decide,
    by decide +kernel, by decide +kernel⟩

theorem witness_LiteralCodeEffect : literalOf (.lit 3#12) = some 3#12 ∧ literalOf (.litM8 255#8) = some 255#12 := by
  decide
theorem witness_ReferenceCodeEffect : learned.str 6#12 = some (0#8 :: [1#8]) := by decide +kernel
theorem witness_SelfReferenceEffect : (6#12 : Code).toNat = withPrev.next.toNat ∧ withPrev.prevV = true
    ∧ withPrev.str withPrev.prevCode = some (0#8 :: []) ∧ withPrev.clearcode.toNat + 2 ≤ withPrev.next.toNat := by
  decide +kernel
theorem witness_SelfReferenceEffect_withoutPrevious : start.prevV = false := by decide
theorem witness_EndCodeEffect : isEnd .eoi = true ∧ isEnd .eoiM8 = true := by decide
theorem witness_ClearCodeEffect : isClear .clr = true ∧ isClear .clrM2 = true := by decide
/-- LIT 1, KWK 6, REF 6 from a table reset run, and so does LIT alone. -/
theorem witness_WidthSchedule : 2 ≤ start.mincs.toNat ∧ start.mincs.toNat ≤ 8
    ∧ start.clearcode.toNat = 2 ^ start.mincs.toNat ∧ start.next.toNat = start.clearcode.toNat + 2
    ∧ start.codesize.toNat = start.mincs.toNat + 1 ∧ start.prevV = false
    ∧ (literalOf (.litM2 1)).isSome = true ∧ (∀ j, j ∈ [Instr.kwk 6, .ref 6] → emitsString j = true)
    ∧ (execAll [.litM2 1, .kwk 6, .ref 6] start).isSome = true
    ∧ (∀ j, j ∈ [Instr.litM2 3] → (literalOf j).isSome = true) := by decide +kernel

theorem witness_DecodeCommandStarts : atRest.busy = false ∧ atRest.written decodeOperands = true ∧ 2 ≤ atRest.mincs.toNat
    ∧ atRest.mincs.toNat ≤ 8
    ∧ atRest.ilen.toNat ≤ atRest.params.ibufCap.toNat
    ∧ atRest.expect.toNat ≤ atRest.params.obufCap.toNat := by decide +kernel
/-- MINCS = 8, and both operands equal to their capacities. -/
theorem witness_DecodeCommandStarts_upper :
    let s := { atRest with mincs := 8, params := ⟨3, 4, 0⟩ }
    s.busy = false ∧ s.written decodeOperands = true ∧ 2 ≤ s.mincs.toNat ∧ s.mincs.toNat ≤ 8
    ∧ s.ilen.toNat ≤ s.params.ibufCap.toNat
    ∧ s.expect.toNat ≤ s.params.obufCap.toNat := by decide +kernel
theorem witness_DecodeCommandBadMincs_low :
    let s := { atRest with mincs := 1 }
    s.busy = false ∧ s.written decodeOperands = true ∧ (s.mincs.toNat < 2 ∨ 8 < s.mincs.toNat)
    ∧ s.ilen.toNat ≤ s.params.ibufCap.toNat
    ∧ s.expect.toNat ≤ s.params.obufCap.toNat := by decide +kernel
theorem witness_DecodeCommandBadMincs_high :
    let s := { atRest with mincs := 9 }
    s.busy = false ∧ s.written decodeOperands = true ∧ (s.mincs.toNat < 2 ∨ 8 < s.mincs.toNat)
    ∧ s.ilen.toNat ≤ s.params.ibufCap.toNat
    ∧ s.expect.toNat ≤ s.params.obufCap.toNat := by decide +kernel
/-- At rest right after reset, no operand written. -/
theorem witness_CommandsOnUnwrittenOperandsRun : State.reset.busy = false
    ∧ State.reset.written decodeOperands = false ∧ State.reset.written deintOperands = false := by decide
/-- Capacities one below the operands: ILEN = 3 and EXPECT = 4 for DECODE, OCNT = 7 for both paths of DEINT, 2 · 5. -/
theorem witness_CommandsBeyondCapacityRefused :
    let s := { atRest with params := ⟨2, 3, 6⟩ }
    let t := { atRest with params := ⟨3, 7, 9⟩ }
    let u := { atRest with params := ⟨3, 7, 6⟩, height := 1 }
    s.busy = false ∧ s.written decodeOperands = true ∧ s.written deintOperands = true
    ∧ s.params.ibufCap.toNat < s.ilen.toNat
    ∧ s.params.obufCap.toNat < s.expect.toNat ∧ s.params.obufCap.toNat < s.ocnt.toNat
    ∧ u.busy = false ∧ u.written deintOperands = true ∧ u.height.toNat ≤ 1 ∧ u.params.dbufCap.toNat < u.ocnt.toNat
    ∧ t.busy = false ∧ t.written deintOperands = true
    ∧ ¬(t.height.toNat ≤ 1 ∨ t.ocnt.toNat < t.width.toNat
        ∨ t.width.toNat = 0)
    ∧ t.params.dbufCap.toNat < t.width.toNat * t.height.toNat := by decide +kernel
/-- The three no-op conditions: HEIGHT = 1, OCNT = 1 < WIDTH = 2, WIDTH = 0. -/
theorem witness_DeintNoopCopies :
    let s := { atRest with height := 1 }
    let t := { atRest with ocnt := 1 }
    let u := { atRest with width := 0 }
    (s.busy = false ∧ s.written deintOperands = true ∧ s.height.toNat ≤ 1 ∧ s.ocnt.toNat ≤ s.params.obufCap.toNat
      ∧ s.ocnt.toNat ≤ s.params.dbufCap.toNat)
    ∧ (t.busy = false ∧ t.written deintOperands = true ∧ t.ocnt.toNat < t.width.toNat
      ∧ t.ocnt.toNat ≤ t.params.obufCap.toNat ∧ t.ocnt.toNat ≤ t.params.dbufCap.toNat)
    ∧ (u.busy = false ∧ u.written deintOperands = true ∧ u.width.toNat = 0 ∧ u.ocnt.toNat ≤ u.params.obufCap.toNat
      ∧ u.ocnt.toNat ≤ u.params.dbufCap.toNat) := by decide +kernel
/-- Partial input (7 of 10 indices), and HEIGHT = 2 with OCNT = WIDTH = 1. -/
theorem witness_DeintReorders :
    let s := atRest
    let t := { atRest with height := 2, width := 1, ocnt := 1 }
    (s.busy = false ∧ s.written deintOperands = true ∧ 2 ≤ s.height.toNat
      ∧ s.width.toNat ≤ s.ocnt.toNat ∧ 1 ≤ s.width.toNat
      ∧ s.ocnt.toNat ≤ s.params.obufCap.toNat
      ∧ s.width.toNat * s.height.toNat ≤ s.params.dbufCap.toNat)
    ∧ (t.busy = false ∧ t.written deintOperands = true ∧ 2 ≤ t.height.toNat
      ∧ t.width.toNat ≤ t.ocnt.toNat ∧ 1 ≤ t.width.toNat
      ∧ t.ocnt.toNat ≤ t.params.obufCap.toNat
      ∧ t.width.toNat * t.height.toNat ≤ t.params.dbufCap.toNat) := by decide +kernel
theorem witness_DeintCompleteImage :
    let s := { atRest with ocnt := 10 }
    s.busy = false ∧ s.written deintOperands = true ∧ 2 ≤ s.height.toNat ∧ 1 ≤ s.width.toNat
    ∧ s.ocnt.toNat = s.width.toNat * s.height.toNat
    ∧ s.ocnt.toNat ≤ s.params.obufCap.toNat ∧ s.ocnt.toNat ≤ s.params.dbufCap.toNat := by
  decide +kernel
/-- A row of each pass of an image of 9 rows. -/
theorem witness_RowMapIsBijection : (8 : Nat) < 9 ∧ 0 % 8 = 0 ∧ 8 % 8 = 0 ∧ 4 % 8 = 4 ∧ 12 % 8 = 4 ∧ 2 % 4 = 2 ∧ 6 % 4 = 2
    ∧ 1 % 2 = 1 ∧ 3 % 2 = 1 := by decide
theorem witness_ClearCommandEffect : atRest.busy = false := by decide
theorem witness_MistimedCommands : 3 % 2 ^ 32 ≠ 1 ∧ 3 % 2 ^ 32 ≠ 2 ∧ 3 % 2 ^ 32 ≠ 4 ∧ start.busy = true := by decide
theorem witness_BusyRule : start.busy = true ∧ (0 : Nat) ≠ 1 := by decide
theorem witness_HostWritesRegister : atRest.busy = false ∧ (1 : Nat) ≠ 0 ∧ (18 : Nat) ≤ 18 := by decide
theorem witness_HostBufferAccess :
    let s := { atRest with params := ⟨3, 7, 10⟩ }
    s.busy = false ∧ 2 < s.capacity .ibuf ∧ s.capacity .ibuf ≤ 3 ∧ 9 < s.capacity .dbuf ∧ Space.obuf ≠ .dbuf
    ∧ s.synced = true ∧ Space.obuf ≠ .ibuf ∧ ({ s with synced := false } : State).synced = false := by decide
/-- Both sides of the range of the result registers, before and after the host has read BUSY = 0. -/
theorem witness_HostReadsChangeNothing :
    let u := { atRest with synced := false }
    atRest.busy = false ∧ atRest.synced = true ∧ u.busy = false ∧ u.synced = false
    ∧ (7 : Nat) ≠ 1 ∧ (7 : Nat) < 8 ∧ (17 : Nat) < 18 ∧ (8 : Nat) ≤ 8 ∧ (17 : Nat) ≤ 17 := by decide
theorem witness_ResultsAwaitAStatusRead : (∃ t, exec .decode atRest = .next t) ∧ (∃ t, exec .deint atRest = .next t)
    ∧ (∃ t, exec .clear atRest = .next t) ∧ (∃ t, engineStep atRest = .next t)
    ∧ (∃ t, hostAct (.writeReg 8 3) atRest = .next t) ∧ ∃ t, hostAct (.writeBuf .obuf 0 3) atRest = .next t :=
  ⟨⟨_, rfl⟩, ⟨_, rfl⟩, ⟨_, rfl⟩, ⟨_, rfl⟩, ⟨_, rfl⟩, ⟨_, rfl⟩⟩

/-! ## States of the invariant -/

theorem start_inv : Inv start := by
  refine ⟨by unfold memoryInv; decide +kernel, by unfold statusInv; decide +kernel, by decide, fun _ =>
    ⟨by decide, by decide, by unfold workInv; decide +kernel, ⟨by decide +kernel, fun c h1 h2 => ?_⟩,
      by unfold admittedInv; decide +kernel⟩⟩
  change 6 ≤ c at h1
  change c < 6 at h2
  omega

theorem learned_inv : Inv learned := by
  refine ⟨by unfold memoryInv; decide +kernel, by unfold statusInv; decide +kernel, by decide, fun _ =>
    ⟨by decide, by decide, by unfold workInv; decide +kernel, ⟨by decide +kernel, fun c h1 h2 => ?_⟩,
      by unfold admittedInv; decide +kernel⟩⟩
  change 6 ≤ c at h1
  change c < 7 at h2
  obtain rfl : c = 6 := by omega
  exact ⟨0, 1, by decide, by decide, by decide, by decide, by decide⟩

theorem witness_EveryStepKeepsInvariant : Inv learned ∧ step atRest = .next atRest := ⟨learned_inv, rfl⟩
theorem witness_EveryStepKeepsInvariant_busy : Inv start ∧ ∃ t, step start = .next t := by
  have h0 : after (step start) (fun _ => true) = true := by decide +kernel
  refine ⟨start_inv, ?_⟩
  cases h : step start with
  | next t => exact ⟨t, rfl⟩
  | fault r => rw [h] at h0; cases h0
  | refused r => rw [h] at h0; cases h0
theorem witness_StatusStaysLegal : statusInv start.status ∧ ∃ t, step start = .next t :=
  ⟨start_inv.2.1, witness_EveryStepKeepsInvariant_busy.2⟩
theorem witness_MemoryStaysCanonical : start.ibuf.wf = true ∧ start.obuf.wf = true ∧ start.dbuf.wf = true
    ∧ Table.wf start.tab = true ∧ ∃ t, step start = .next t :=
  ⟨by decide, by decide, by decide, by decide +kernel, witness_EveryStepKeepsInvariant_busy.2⟩
/-- A literal and a learned code. -/
theorem witness_StringsAreBounded : Inv learned ∧ learned.busy = true ∧ learned.present 3 = true
    ∧ learned.present 6 = true ∧ (3#12 : Code).toNat < learned.clearcode.toNat
    ∧ learned.clearcode.toNat + 2 ≤ (6#12 : Code).toNat :=
  ⟨learned_inv, by decide, by decide, by decide, by decide, by decide⟩
theorem witness_EngineStepIsTotal : Inv start := start_inv
theorem witness_EveryDecodeHalts : Inv start ∧ start.busy = true ∧ start.script = [] :=
  ⟨start_inv, by decide, by decide⟩
theorem witness_EngineNeverWritesItsInput : ∃ t, engineStep start = .next t := witness_EveryStepKeepsInvariant_busy.2
theorem witness_CursorOnlyMovesForward : Inv start ∧ start.busy = true ∧ ∃ t, engineStep start = .next t :=
  ⟨start_inv, by decide, witness_EveryStepKeepsInvariant_busy.2⟩
theorem witness_OnlyThreeCausesRaise :
    start.err = false ∧ after (exec (.kwk 6) start) State.err = true ∧ after (exec (.inv 7) start) State.err = true
    ∧ atRest.err = false ∧ after (exec .decode { atRest with mincs := 9 }) State.err = true := by decide +kernel
theorem witness_CapacitiesAreFixed : ∃ t, step start = .next t := witness_EveryStepKeepsInvariant_busy.2

/-- The operands and the input of `atRest`, with other leftovers of earlier commands. -/
def atRestDirty : State :=
  { atRest with
    status := 0x404, bitpos := 9, codesize := 5, next := 30, prev := prevOf 7, clearcode := 8, endcode := 9, ecode := 7,
    ocnt := 3, tab := [(6, ⟨some 1, 2⟩)] }

theorem witness_DecodesStartAlike : atRest.busy = false ∧ atRestDirty.busy = false
    ∧ atRest.written decodeOperands = true ∧ atRestDirty.written decodeOperands = true
    ∧ atRest.mincs = atRestDirty.mincs
    ∧ atRest.expect = atRestDirty.expect
    ∧ atRest.ilen = atRestDirty.ilen ∧ atRest.config = atRestDirty.config
    ∧ (∀ a, a < atRest.ilen.toNat → atRest.cell .ibuf a = atRestDirty.cell .ibuf a)
    ∧ 2 ≤ atRest.mincs.toNat ∧ atRest.mincs.toNat ≤ 8
    ∧ (∃ t, exec .decode atRest = .next t) ∧ ∃ t, exec .decode atRestDirty = .next t :=
  ⟨by decide, by decide, by decide, by decide, by decide +kernel, by decide +kernel, by decide +kernel, by decide,
    fun _ _ => rfl,
    by decide +kernel, by decide +kernel, ⟨_, rfl⟩, ⟨_, rfl⟩⟩
theorem witness_DecodeRunsAreIsolated : sameDecode start { start with tab := [(9, ⟨none, 3⟩)], width := 4 }
    ∧ start.opk = false ∧ start.script = [] ∧ ∃ s', runSteps 1 start = some s' := by
  refine ⟨⟨rfl, rfl, rfl, rfl, rfl, rfl, rfl, rfl, rfl, rfl, rfl, rfl, rfl, fun _ _ => rfl, fun c h1 h2 => ?_⟩,
    by decide, by decide, ?_⟩
  · change 6 ≤ c at h1
    change c < 6 at h2
    omega
  · obtain ⟨t, ht⟩ := witness_EveryStepKeepsInvariant_busy.2
    exact ⟨t, by simp [runSteps, ht]⟩
theorem witness_ArenaRefinesStrings_start : atRest.busy = false ∧ atRest.written decodeOperands = true
    ∧ after (exec .decode atRest) State.busy = true := by decide +kernel
theorem start_represents : represents start (stringInit 4) :=
  ⟨by decide +kernel, by decide +kernel, by decide +kernel⟩
theorem witness_ArenaRefinesStrings_code : Inv start ∧ start.busy = true ∧ represents start (stringInit 4)
    ∧ start.fetch = .ok (.litM2 0#2) ∧ encodeCode start.context (.litM2 0#2) = some 0#12
    ∧ (∃ t, exec (.litM2 0#2) start = .next t)
    ∧ stringCode start.clearcode.toNat 0 (stringInit 4) = some ([0#8], { stringInit 4 with prev := some [0#8] })
    ∧ stringCode start.clearcode.toNat 5 (stringInit 4) = none :=
  ⟨start_inv, by decide, start_represents, by decide +kernel, by decide, ⟨_, rfl⟩, by decide +kernel,
    by decide +kernel⟩
/-- The index sequence 1 with MINCS = 2: codes 4, 1, 5, payload 4C 01. -/
theorem witness_ReferenceEncoderRoundTrip :
    let s := { atRest with expect := 1, ilen := 2, ibuf := [(0, 0x4C), (1, 0x01)] }
    (∀ b, b ∈ [1#8] → b.toNat < 2 ^ 2) ∧ s.busy = false ∧ s.script = [] ∧ s.written decodeOperands = true
    ∧ s.mincs.toNat = 2
    ∧ s.expect.toNat = [1#8].length
    ∧ after (exec .decode s) (fun s' => s'.payload == referencePayload 2 [1#8]) = true := by decide +kernel

end Sys2Proof.Tests
end

section
/-! PROOFS. What an instruction, an engine step and a step of the machine can answer, each said once
(`exec_next`, `engineStep_next`, `step_next`), and what follows for the capacities (00_scope.md R7). -/

namespace Sys2Proof.Machine

/-! ## What an instruction can answer -/

/-- The states an instruction can answer with, by the instruction's class and the state it starts from; `exec_next` says
that there is no other. -/
inductive ExecNext (s : State) : Instr → State → Prop
  | literal {i : Instr} {c : Code} (hi : literalOf i = some c) : ExecNext s i (literalCode c s)
  | clearCode {i : Instr} (hi : isClear i = true) : ExecNext s i (clearCode s)
  | endCode {i : Instr} (hi : isEnd i = true) : ExecNext s i (endCode s)
  | reference {c : Code} {b : Byte} {rest : List Byte} (hstr : s.str c = some (b :: rest)) :
      ExecNext s (.ref c) (presentCode c b (b :: rest) s)
  | selfReference {c : Code} {b : Byte} {rest : List Byte} (hprev : s.prevV = true)
      (hstr : s.str s.prevCode = some (b :: rest)) : ExecNext s (.kwk c) (selfReference c b (b :: rest) s)
  | noPrevious {c : Code} (hprev : s.prevV = false) :
      ExecNext s (.kwk c) (raiseFormatError 1 c s.bitpos (advance s))
  | invalid {c : Code} : ExecNext s (.inv c) (invalidCode c s)
  | busyCommand {i : Instr} (hi : i = .decode ∨ i = .deint ∨ i = .clear) (hb : s.busy = true) : ExecNext s i s
  | decode (hb : s.busy = false) (hfits : (settleDecode s).decodeFits = true) :
      ExecNext s .decode (startDecode (settleDecode s))
  | deint (hb : s.busy = false) (hfits : (settleDeint s).deintFits = true) :
      ExecNext s .deint (startDeint (settleDeint s))
  | clear (hb : s.busy = false) : ExecNext s .clear (leaveHalt s)

theorem referenceCode_next {c : Code} {s t : State} (h : referenceCode c s = .next t) : ExecNext s (.ref c) t := by
  unfold referenceCode at h
  split at h
  · next hstr => cases h; exact .reference hstr
  · cases h

theorem kwkCode_next {c : Code} {s t : State} (h : kwkCode c s = .next t) : ExecNext s (.kwk c) t := by
  unfold kwkCode at h
  split at h
  · next hprev =>
    split at h
    · next hstr => cases h; exact .selfReference hprev hstr
    · cases h
  · next hprev => cases h; exact .noPrevious (Bool.eq_false_iff.2 hprev)

/-- While BUSY = 1 a command that reads operands has no effect (43_host_commands.md R181, R187). -/
theorem admitted_busy {fits : State → Bool} {accept : State → State} {s settled : State} (hb : s.busy = true) :
    admitted fits accept s settled = .next s := by
  simp [admitted, hb]

theorem execDecode_next {s t : State} (h : execDecode s = .next t) : ExecNext s .decode t := by
  unfold execDecode at h
  cases hb : s.busy with
  | true =>
    rw [admitted_busy hb] at h
    cases h
    exact .busyCommand (.inl rfl) hb
  | false =>
    obtain ⟨hfits, rfl⟩ := admitted_next hb h
    exact .decode hb hfits

theorem execDeint_next {s t : State} (h : execDeint s = .next t) : ExecNext s .deint t := by
  unfold execDeint at h
  cases hb : s.busy with
  | true =>
    rw [admitted_busy hb] at h
    cases h
    exact .busyCommand (.inr (.inl rfl)) hb
  | false =>
    obtain ⟨hfits, rfl⟩ := admitted_next hb h
    exact .deint hb hfits

theorem execClear_next {s t : State} (h : execClear s = .next t) : ExecNext s .clear t := by
  unfold execClear at h
  split at h
  · next hb => cases h; exact .busyCommand (.inr (.inr rfl)) hb
  · next hb => cases h; exact .clear (Bool.eq_false_iff.2 hb)

theorem exec_next {i : Instr} {s t : State} (h : exec i s = .next t) : ExecNext s i t := by
  cases i with
  | lit | litM2 | litM3 | litM4 | litM5 | litM6 | litM7 | litM8 => cases h; exact .literal rfl
  | clr | clrM2 | clrM3 | clrM4 | clrM5 | clrM6 | clrM7 | clrM8 => cases h; exact .clearCode rfl
  | eoi | eoiM2 | eoiM3 | eoiM4 | eoiM5 | eoiM6 | eoiM7 | eoiM8 => cases h; exact .endCode rfl
  | ref => exact referenceCode_next h
  | kwk => exact kwkCode_next h
  | inv => cases h; exact .invalid
  | decode => exact execDecode_next h
  | deint => exact execDeint_next h
  | clear => exact execClear_next h

/-! ## What the engine and the machine can answer -/

/-- The three ways a DecodeStep goes (41_lzw_codes.md R126): the count test, the exhaustion test, a code. -/
theorem decodeStep_next {s t : State} (h : decodeStep s = .next t) :
    (s.expect.toNat ≤ s.ocnt.toNat ∧ t = haltCount s)
    ∨ (s.ocnt.toNat < s.expect.toNat ∧ (∃ e, s.fetch = .rejected e) ∧ t = haltTrunc s)
    ∨ (s.ocnt.toNat < s.expect.toNat ∧ ∃ i, s.fetch = .ok i ∧ exec i s = .next t) := by
  unfold decodeStep at h
  split at h
  · next hcount => cases h; exact .inl ⟨hcount, rfl⟩
  · next hcount =>
    have hroom : s.ocnt.toNat < s.expect.toNat := Nat.lt_of_not_le hcount
    split at h
    · next e hfetch => cases h; exact .inr (.inl ⟨hroom, ⟨e, hfetch⟩, rfl⟩)
    · next i hfetch => exact .inr (.inr ⟨hroom, i, hfetch, h⟩)

/-- The three ways an engine step goes: a running DEINT, a running DECODE, the block at rest. -/
theorem engineStep_next {s t : State} (h : engineStep s = .next t) :
    (s.busy = true ∧ s.opk = true ∧ t = deinterlace s)
    ∨ (s.busy = true ∧ s.opk = false ∧ decodeStep s = .next t)
    ∨ (s.busy = false ∧ t = s) := by
  unfold engineStep at h
  split at h
  · next hb =>
    split at h
    · next ho => cases h; exact .inl ⟨hb, ho, rfl⟩
    · next ho => exact .inr (.inl ⟨hb, Bool.eq_false_iff.2 ho, h⟩)
  · next hb => cases h; exact .inr (.inr ⟨Bool.eq_false_iff.2 hb, rfl⟩)

/-- The three ways a step of the machine goes: the engine's turn, a host action, a poll that finds the block at rest. -/
theorem step_next {s t : State} (h : step s = .next t) :
    (∃ u, engineTurn s u ∧ engineStep u = .next t)
    ∨ (∃ a rest, s.script = .act a :: rest ∧ hostAct a (setScript rest s) = .next t)
    ∨ (∃ rest, s.script = .poll :: rest ∧ s.busy = false ∧ t = readStatus (setScript rest s)) := by
  unfold step machineStep at h
  split at h
  · next a rest hs => exact .inr (.inl ⟨a, rest, hs, h⟩)
  · next rest hs => exact .inl ⟨_, .inr (.inl ⟨rest, hs, rfl⟩), h⟩
  · next rest hs =>
    split at h
    · next hb => exact .inl ⟨s, .inr (.inr ⟨⟨rest, hs⟩, hb, rfl⟩), h⟩
    · next hb => cases h; exact .inr (.inr ⟨rest, hs, Bool.eq_false_iff.2 hb, rfl⟩)
  · next hs => exact .inl ⟨s, .inl ⟨hs, rfl⟩, h⟩

/-! ## What writes only registers, buffers and the table keeps the capacities (00_scope.md R7) -/

@[simp] theorem advance_params (s : State) : (advance s).params = s.params := rfl
@[simp] theorem tableReset_params (s : State) : (tableReset s).params = s.params := rfl
@[simp] theorem decodeInit_params (s : State) : (decodeInit s).params = s.params := rfl
@[simp] theorem beginCommand_params (opk : Bool) (s : State) : (beginCommand opk s).params = s.params := rfl
@[simp] theorem raiseFormatError_params (cause : BitVec 3) (c : Code) (pos : BitVec 35) (s : State) :
    (raiseFormatError cause c pos s).params = s.params := rfl
@[simp] theorem settleDecode_params (s : State) : (settleDecode s).params = s.params := rfl
@[simp] theorem settleDeint_params (s : State) : (settleDeint s).params = s.params := rfl
@[simp] theorem hardReset_params (s : State) : (hardReset s).params = s.params := rfl
@[simp] theorem readStatus_params (s : State) : (readStatus s).params = s.params := rfl
@[simp] theorem unsyncedDraw_params (w : Nat) (s : State) : (unsyncedDraw w s).params = s.params := rfl

@[simp] theorem presentCode_params (c : Code) (b : Byte) (str : List Byte) (s : State) :
    (presentCode c b str s).params = s.params := by
  obtain ⟨m, n, w, t, x, h⟩ := presentCode_writes c b str s
  simp [h]

@[simp] theorem selfReference_params (c : Code) (b : Byte) (str : List Byte) (s : State) :
    (selfReference c b str s).params = s.params := by
  obtain ⟨m, n, w, t, x, h⟩ := selfReference_writes c b str s
  simp [h]

@[simp] theorem deinterlace_params (s : State) : (deinterlace s).params = s.params := by
  unfold deinterlace
  split <;> rfl

@[simp] theorem startDecode_params (s : State) : (startDecode s).params = s.params := by
  unfold startDecode
  split <;> simp

@[simp] theorem startDeint_params (s : State) : (startDeint s).params = s.params := by simp [startDeint]

@[simp] theorem hostReadReg_params (n : Nat) (s : State) : (hostReadReg n s).params = s.params := by
  unfold hostReadReg
  split_ifs <;> simp

@[simp] theorem writeRegister_params (n v : Nat) (s : State) : (writeRegister n v s).params = s.params := by
  unfold writeRegister
  split <;> rfl

@[simp] theorem hostWriteReg_params (n v : Nat) (s : State) : (hostWriteReg n v s).params = s.params := by
  unfold hostWriteReg
  split <;> simp

@[simp] theorem writeBuffer_params (sp : Space) (a v : Nat) (s : State) :
    (writeBuffer sp a v s).params = s.params := by
  cases sp <;> rfl

/-! ## Instructions, engine steps, host actions and steps keep the capacities -/

theorem ExecNext.params_eq {i : Instr} {s t : State} (h : ExecNext s i t) : t.params = s.params := by
  cases h with
  | literal | reference => exact presentCode_params ..
  | clearCode => exact tableReset_params (advance s)
  | selfReference => exact selfReference_params ..
  | decode => exact startDecode_params (settleDecode s)
  | deint => exact startDeint_params (settleDeint s)
  | endCode | noPrevious | invalid | busyCommand | clear => rfl

theorem exec_params {i : Instr} {s t : State} (h : exec i s = .next t) : t.params = s.params :=
  (exec_next h).params_eq

theorem engineStep_params {s t : State} (h : engineStep s = .next t) : t.params = s.params := by
  obtain ⟨-, -, rfl⟩ | ⟨-, -, hstep⟩ | ⟨-, rfl⟩ := engineStep_next h
  · exact deinterlace_params s
  · obtain ⟨-, rfl⟩ | ⟨-, -, rfl⟩ | ⟨-, i, -, hexec⟩ := decodeStep_next hstep
    · rfl
    · rfl
    · exact exec_params hexec
  · rfl

theorem hostCommand_params {v : Nat} {s t : State} (h : hostCommand v s = .next t) : t.params = s.params := by
  unfold hostCommand at h
  split at h
  · exact exec_params h
  · cases h; rfl

theorem hostReadBuf_params {sp : Space} {a : Nat} {s t : State} (h : hostReadBuf sp a s = .next t) :
    t.params = s.params := by
  unfold hostReadBuf at h
  split_ifs at h <;> cases h <;> rfl

theorem hostWriteBuf_params {sp : Space} {a v : Nat} {s t : State} (h : hostWriteBuf sp a v s = .next t) :
    t.params = s.params := by
  unfold hostWriteBuf at h
  split_ifs at h <;> cases h
  · rfl
  · exact writeBuffer_params sp a v s

theorem hostAct_params {a : HostAction} {s t : State} (h : hostAct a s = .next t) : t.params = s.params := by
  cases a with
  | readReg n => cases h; exact hostReadReg_params n s
  | writeReg n v =>
    simp only [hostAct] at h
    split at h
    · exact hostCommand_params h
    · cases h; exact hostWriteReg_params n v s
  | readBuf => exact hostReadBuf_params h
  | writeBuf => exact hostWriteBuf_params h
  | reset => cases h; rfl

theorem engineTurn_params {s u : State} (h : engineTurn s u) : u.params = s.params := by
  obtain ⟨-, rfl⟩ | ⟨rest, -, rfl⟩ | ⟨-, -, rfl⟩ := h <;> rfl

/-- Settles O51: the machine steps by an engine step, a host action or a poll of the block at rest, and each of the
three keeps the parameters, which the model holds in its state (log entry 3). -/
theorem capacitiesAreFixed : Obligations.CapacitiesAreFixed := by
  intro s t h
  obtain ⟨u, hturn, hstep⟩ | ⟨a, rest, -, hact⟩ | ⟨rest, -, -, rfl⟩ := step_next h
  · exact (engineStep_params hstep).trans (engineTurn_params hturn)
  · exact (hostAct_params hact).trans (setScript_params rest s)
  · exact (readStatus_params _).trans (setScript_params rest s)

end Sys2Proof.Machine
end

section
/-! PROOFS. What a host action can answer, said once (`hostAct_next`), and the two invariants that every step keeps from
every state: STATUS stays legal (10_state.md R24), the memories stay canonical (R40, R42 to R44). -/

namespace Sys2Proof.Machine

/-! ## STATUS (10_state.md R23, R24) -/

/-- Every word the block ever writes to STATUS: the idle word (43_host_commands.md R186), a running DECODE and
DEINT (R182), the halts and the faults (60_exceptions.md R207, R210). -/
def statusWords : List (BitVec 32) :=
  [0, busyWord false, busyWord true, endWord false, endWord true, countWord, truncWord, deintWord false, deintWord true,
   errorWord 1, errorWord 2, errorWord 3]

theorem statusWords_eq : statusWords
    = [0x000#32, 0x001#32, 0x101#32, 0x00A#32, 0x04A#32, 0x012#32, 0x062#32, 0x102#32, 0x182#32,
       0x204#32, 0x404#32, 0x604#32] := by
  decide

theorem statusInv_statusWords {w : BitVec 32} (h : w ∈ statusWords) : statusInv w := by
  simp only [statusWords_eq, List.mem_cons, List.not_mem_nil, or_false] at h
  unfold statusInv
  rcases h with rfl | rfl | rfl | rfl | rfl | rfl | rfl | rfl | rfl | rfl | rfl | rfl <;> decide


/-! ## What a host action can answer -/

/-- The commands among the instructions (30_encoding.md R97). -/
def isCommand (i : Instr) : Prop := i = .decode ∨ i = .deint ∨ i = .clear

theorem decodeCtrl_isCommand {v : BitVec 32} {i : Instr} (h : decodeCtrl v = .ok i) : isCommand i := by
  unfold decodeCtrl at h
  split_ifs at h <;> cases h
  · exact .inl rfl
  · exact .inr (.inl rfl)
  · exact .inr (.inr rfl)

/-- The states a host action can answer with; `hostAct_next` says that there is no other. -/
inductive HostNext (s : State) : State → Prop
  | command {i : Instr} {t : State} (hi : isCommand i) (h : ExecNext s i t) : HostNext s t
  | ignored : HostNext s s
  | readStatus : HostNext s (readStatus s)
  | read (v : BitVec 35) : HostNext s (setLastRead v s)
  | draw (w : Nat) : HostNext s (unsyncedDraw w s)
  | writeRegister (n v : Nat) (hb : s.busy = false) : HostNext s (writeRegister n v s)
  | writeBuffer {sp : Space} {a : Nat} (v : Nat) (hb : s.busy = false) (ha : a < s.capacity sp) :
      HostNext s (writeBuffer sp a v s)
  | reset : HostNext s (hardReset s)

theorem hostCommand_next {v : Nat} {s t : State} (h : hostCommand v s = .next t) : HostNext s t := by
  unfold hostCommand at h
  split at h
  · next i hi => exact .command (decodeCtrl_isCommand hi) (exec_next h)
  · cases h; exact .ignored

theorem hostReadReg_next (n : Nat) (s : State) : HostNext s (hostReadReg n s) := by
  unfold hostReadReg
  split_ifs
  · exact .readStatus
  · exact .draw _
  · exact .read _

theorem hostWriteReg_next (n v : Nat) (s : State) : HostNext s (hostWriteReg n v s) := by
  unfold hostWriteReg
  split
  · exact .ignored
  · next hb => exact .writeRegister n v (Bool.eq_false_iff.2 hb)

theorem hostReadBuf_next {sp : Space} {a : Nat} {s t : State} (h : hostReadBuf sp a s = .next t) : HostNext s t := by
  unfold hostReadBuf at h
  split_ifs at h <;> cases h
  · exact .draw _
  · exact .draw _
  · exact .read _

theorem hostWriteBuf_next {sp : Space} {a v : Nat} {s t : State} (h : hostWriteBuf sp a v s = .next t) :
    HostNext s t := by
  unfold hostWriteBuf at h
  split_ifs at h with hb ha <;> cases h
  · exact .ignored
  · exact .writeBuffer v (Bool.eq_false_iff.2 hb) ha

theorem hostAct_next {a : HostAction} {s t : State} (h : hostAct a s = .next t) : HostNext s t := by
  cases a with
  | readReg n => cases h; exact hostReadReg_next n s
  | writeReg n v =>
    simp only [hostAct] at h
    split at h
    · exact hostCommand_next h
    · cases h; exact hostWriteReg_next n v s
  | readBuf => exact hostReadBuf_next h
  | writeBuf => exact hostWriteBuf_next h
  | reset => cases h; exact .reset

/-! ## STATUS stays legal -/

@[simp] theorem tableReset_status (s : State) : (tableReset s).status = s.status := by simp [tableReset]

@[simp] theorem advance_status (s : State) : (advance s).status = s.status := rfl

@[simp] theorem presentCode_status (c : Code) (b : Byte) (str : List Byte) (s : State) :
    (presentCode c b str s).status = s.status := by
  obtain ⟨m, n, w, t, x, h⟩ := presentCode_writes c b str s
  simp [h]

@[simp] theorem selfReference_status (c : Code) (b : Byte) (str : List Byte) (s : State) :
    (selfReference c b str s).status = s.status := by
  obtain ⟨m, n, w, t, x, h⟩ := selfReference_writes c b str s
  simp [h]

theorem haltEnd_status_mem (s : State) : (haltEnd s).status ∈ statusWords := by
  cases hs : s.isShort <;> simp [haltEnd, hs, statusWords]

theorem deinterlace_status_mem (s : State) : (deinterlace s).status ∈ statusWords := by
  unfold deinterlace
  split <;> simp [haltDeint, statusWords]

theorem startDecode_status_mem (s : State) : (startDecode s).status ∈ statusWords := by
  unfold startDecode
  split
  · change busyWord false ∈ statusWords
    simp [statusWords]
  · simp [raiseFormatError, statusWords]

@[simp] theorem writeRegister_status (n v : Nat) (s : State) : (writeRegister n v s).status = s.status := by
  unfold writeRegister
  split <;> rfl

@[simp] theorem writeBuffer_status (sp : Space) (a v : Nat) (s : State) : (writeBuffer sp a v s).status = s.status := by
  cases sp <;> rfl

/-- An instruction leaves STATUS alone or writes one of the words of 60_exceptions.md R207, R210. -/
theorem ExecNext.status {i : Instr} {s t : State} (h : ExecNext s i t) :
    t.status = s.status ∨ t.status ∈ statusWords := by
  cases h with
  | literal | reference => exact .inl (presentCode_status ..)
  | selfReference => exact .inl (selfReference_status ..)
  | clearCode => exact .inl (tableReset_status (advance s))
  | busyCommand => exact .inl rfl
  | endCode => exact .inr (haltEnd_status_mem _)
  | noPrevious | invalid => exact .inr (by simp [invalidCode, raiseFormatError, statusWords])
  | decode => exact .inr (startDecode_status_mem _)
  | deint => exact .inr (deinterlace_status_mem _)
  | clear => exact .inr (by simp [leaveHalt, statusWords])

theorem engineStep_status {s t : State} (h : engineStep s = .next t) :
    t.status = s.status ∨ t.status ∈ statusWords := by
  obtain ⟨-, -, rfl⟩ | ⟨-, -, hstep⟩ | ⟨-, rfl⟩ := engineStep_next h
  · exact .inr (deinterlace_status_mem s)
  · obtain ⟨-, rfl⟩ | ⟨-, -, rfl⟩ | ⟨-, i, -, hexec⟩ := decodeStep_next hstep
    · exact .inr (by simp [haltCount, statusWords])
    · exact .inr (by simp [haltTrunc, statusWords])
    · exact (exec_next hexec).status
  · exact .inl rfl

theorem HostNext.status {s t : State} (h : HostNext s t) : t.status = s.status ∨ t.status ∈ statusWords := by
  cases h with
  | command _ h => exact h.status
  | ignored | readStatus | read | draw => exact .inl rfl
  | writeRegister => exact .inl (writeRegister_status ..)
  | writeBuffer => exact .inl (writeBuffer_status ..)
  | reset => exact .inr (by simp [hardReset, State.reset, statusWords])

theorem engineTurn_status {s u : State} (h : engineTurn s u) : u.status = s.status := by
  obtain ⟨-, rfl⟩ | ⟨rest, -, rfl⟩ | ⟨-, -, rfl⟩ := h <;> rfl

theorem step_status {s t : State} (h : step s = .next t) : t.status = s.status ∨ t.status ∈ statusWords := by
  obtain ⟨u, hturn, hstep⟩ | ⟨a, rest, -, hact⟩ | ⟨rest, -, -, rfl⟩ := step_next h
  · exact engineTurn_status hturn ▸ engineStep_status hstep
  · exact (hostAct_next hact).status
  · exact .inl rfl

/-- Settles O43: a step leaves STATUS alone or writes one of the twelve words of the block, each of them legal. -/
theorem statusStaysLegal : Obligations.StatusStaysLegal := by
  intro s t hs h
  obtain hsame | hword := step_status h
  · rwa [hsame]
  · exact statusInv_statusWords hword

/-! ## Every memory keeps its canonical form -/

/-- The four memories are sorted lists without repeats (10_state.md R40, R42 to R44). -/
def canonical (s : State) : Prop :=
  s.ibuf.wf = true ∧ s.obuf.wf = true ∧ s.dbuf.wf = true ∧ Table.wf s.tab = true

/-- Addresses that rise from a bound are those at or above it, in strictly ascending order. -/
theorem Store.risingFrom_iff {α : Type} {lo : Nat} {m : List (Nat × α)} :
    Store.risingFrom lo m = true ↔ (∀ e, e ∈ m → lo ≤ e.1) ∧ m.Pairwise fun e f => e.1 < f.1 := by
  induction m generalizing lo with
  | nil => simp [Store.risingFrom]
  | cons e m ih =>
    simp only [Store.risingFrom, Bool.and_eq_true, decide_eq_true_eq, ih, List.forall_mem_cons, List.pairwise_cons]
    constructor
    · rintro ⟨hlo, hge, hpair⟩
      exact ⟨⟨hlo, fun f hf => by have := hge f hf; omega⟩, hge, hpair⟩
    · rintro ⟨⟨hlo, -⟩, hge, hpair⟩
      exact ⟨hlo, hge, hpair⟩

theorem Table.wf_iff {t : Table} : Table.wf t = true ↔ t.Pairwise fun e f => e.1 < f.1 := by
  simp [Table.wf, Store.risingFrom_iff]

/-- The table after a reset is canonical: the literal entries lie below CLEARCODE, the kept ones from there on. -/
theorem Table.wf_withLiterals (clear : Nat) {t : Table} (h : Table.wf t = true) :
    Table.wf (withLiterals clear t) = true := by
  rw [Table.wf_iff] at h ⊢
  have hlit : (literalEntries clear).Pairwise fun e f => e.1 < f.1 :=
    List.pairwise_map.2 List.pairwise_lt_range
  refine List.pairwise_append.2 ⟨hlit, h.filter _, fun e he f hf => ?_⟩
  simp only [literalEntries, List.mem_map, List.mem_range] at he
  obtain ⟨k, hk, rfl⟩ := he
  have hf' : clear ≤ f.1 := by simpa using (List.mem_filter.1 hf).2
  exact Nat.lt_of_lt_of_le hk hf'

/-- What holds of the unwritten DBUF and is kept by every write of the copy holds of the copy. -/
theorem copiedOutput_induct {P : Memory → Prop} (s : State) (dest : Nat → Nat) (m : Nat) (h0 : P [])
    (hwrite : ∀ mem i v, i < m → P mem → P (Store.write (dest i) v mem)) : P (copiedOutput s dest m) :=
  List.foldlRecOn (List.range m) _ h0 fun mem hmem i hi => hwrite mem i _ (List.mem_range.1 hi) hmem

theorem copiedOutput_wf (s : State) (dest : Nat → Nat) (m : Nat) : (copiedOutput s dest m).wf = true :=
  copiedOutput_induct (P := fun mem => mem.wf = true) s dest m rfl fun _ _ v _ h => Memory.wf_write _ v h

theorem emitIndex_canonical {s : State} (h : canonical s) (b : Byte) : canonical (emitIndex b s) := by
  obtain ⟨hibuf, hobuf, hdbuf, htab⟩ := h
  unfold emitIndex
  split
  · exact ⟨hibuf, Memory.wf_write _ b hobuf, hdbuf, htab⟩
  · exact ⟨hibuf, hobuf, hdbuf, htab⟩

theorem emit_canonical {s : State} (h : canonical s) (str : List Byte) : canonical (emit str s) := by
  induction str generalizing s with
  | nil => exact h
  | cons b str ih => exact ih (emitIndex_canonical h b)

theorem addEntry_canonical {s : State} (h : canonical s) (p : Code) (b : Byte) : canonical (addEntry p b s) := by
  obtain ⟨hibuf, hobuf, hdbuf, htab⟩ := h
  by_cases hroom : s.next.toNat < 4096
  · rw [addEntry_room hroom]
    exact ⟨hibuf, hobuf, hdbuf, Table.wf_write _ _ htab⟩
  · rw [addEntry_full hroom]
    exact ⟨hibuf, hobuf, hdbuf, htab⟩

theorem tableReset_canonical {s : State} (h : canonical s) : canonical (tableReset s) := by
  obtain ⟨hibuf, hobuf, hdbuf, htab⟩ := h
  simp [canonical, tableReset, hibuf, hobuf, hdbuf, Table.wf_withLiterals _ htab]

theorem presentCode_canonical {s : State} (h : canonical s) (c : Code) (b : Byte) (str : List Byte) :
    canonical (presentCode c b str s) := by
  have hemit : canonical (emit str (advance s)) := emit_canonical (s := advance s) h str
  by_cases hprev : (emit str (advance s)).prevV = true
  · simp only [presentCode, hprev, if_true]
    exact addEntry_canonical hemit _ b
  · simp only [presentCode, hprev, Bool.false_eq_true, if_false]
    exact hemit

theorem selfReference_canonical {s : State} (h : canonical s) (c : Code) (b : Byte) (str : List Byte) :
    canonical (selfReference c b str s) :=
  emit_canonical (addEntry_canonical (s := advance s) h s.prevCode b) (str ++ [b])

theorem deinterlace_canonical {s : State} (h : canonical s) : canonical (deinterlace s) := by
  obtain ⟨hibuf, hobuf, -, htab⟩ := h
  unfold deinterlace
  split <;> exact ⟨hibuf, hobuf, copiedOutput_wf .., htab⟩

theorem startDecode_canonical {s : State} (h : canonical s) : canonical (startDecode s) := by
  unfold startDecode
  split
  · exact tableReset_canonical (s := decodeRegs (beginCommand false s)) h
  · exact h

theorem writeRegister_canonical {s : State} (h : canonical s) (n v : Nat) : canonical (writeRegister n v s) := by
  unfold writeRegister
  split <;> exact h

theorem writeBuffer_canonical {s : State} (h : canonical s) (sp : Space) (a v : Nat) :
    canonical (writeBuffer sp a v s) := by
  obtain ⟨hibuf, hobuf, hdbuf, htab⟩ := h
  cases sp with
  | ibuf => exact ⟨Memory.wf_write a _ hibuf, hobuf, hdbuf, htab⟩
  | obuf => exact ⟨hibuf, Memory.wf_write a _ hobuf, hdbuf, htab⟩
  | dbuf => exact ⟨hibuf, hobuf, hdbuf, htab⟩

theorem hardReset_canonical (s : State) : canonical (hardReset s) := ⟨rfl, rfl, rfl, rfl⟩

theorem ExecNext.keeps_canonical {i : Instr} {s t : State} (h : ExecNext s i t) (hs : canonical s) : canonical t := by
  cases h with
  | literal | reference => exact presentCode_canonical hs ..
  | selfReference => exact selfReference_canonical hs ..
  | clearCode => exact tableReset_canonical (s := advance s) hs
  | decode => exact startDecode_canonical (s := settleDecode s) hs
  | deint => exact deinterlace_canonical (s := beginCommand true (settleDeint s)) hs
  | endCode | noPrevious | invalid | busyCommand | clear => exact hs

theorem engineStep_canonical {s t : State} (h : engineStep s = .next t) (hs : canonical s) : canonical t := by
  obtain ⟨-, -, rfl⟩ | ⟨-, -, hstep⟩ | ⟨-, rfl⟩ := engineStep_next h
  · exact deinterlace_canonical hs
  · obtain ⟨-, rfl⟩ | ⟨-, -, rfl⟩ | ⟨-, i, -, hexec⟩ := decodeStep_next hstep
    · exact hs
    · exact hs
    · exact (exec_next hexec).keeps_canonical hs
  · exact hs

theorem HostNext.keeps_canonical {s t : State} (h : HostNext s t) (hs : canonical s) : canonical t := by
  cases h with
  | command _ h => exact h.keeps_canonical hs
  | ignored | readStatus | read | draw => exact hs
  | writeRegister => exact writeRegister_canonical hs ..
  | writeBuffer => exact writeBuffer_canonical hs ..
  | reset => exact hardReset_canonical s

theorem engineTurn_canonical {s u : State} (h : engineTurn s u) (hs : canonical s) : canonical u := by
  obtain ⟨-, rfl⟩ | ⟨rest, -, rfl⟩ | ⟨-, -, rfl⟩ := h <;> exact hs

theorem step_canonical {s t : State} (h : step s = .next t) (hs : canonical s) : canonical t := by
  obtain ⟨u, hturn, hstep⟩ | ⟨a, rest, -, hact⟩ | ⟨rest, -, -, rfl⟩ := step_next h
  · exact engineStep_canonical hstep (engineTurn_canonical hturn hs)
  · exact (hostAct_next hact).keeps_canonical (s := setScript rest s) hs
  · exact hs

/-- Settles O44: every place a step can write is written by an operation that keeps the addresses rising. -/
theorem memoryStaysCanonical : Obligations.MemoryStaysCanonical :=
  fun _ _ hibuf hobuf hdbuf htab h => step_canonical h ⟨hibuf, hobuf, hdbuf, htab⟩

end Sys2Proof.Machine
end

section
/-! PROOFS. What a fetched code can answer (`codeNext_of_fetch`), and what the strings, the present codes and PREV are
(00_scope.md R11, 41_lzw_codes.md R128, 10_state.md R36). -/

namespace Sys2Proof.Machine

/-! ## What a fetched code can answer -/

/-- The class of a fetched value, with what the later proofs need of it (30_encoding.md R93). -/
inductive CodeClass (x : CodeContext) (c : Code) : Instr → Prop
  | literal {i : Instr} {d : Code} (hi : literalOf i = some d) (hd : d.toNat < x.clearcode.toNat) : CodeClass x c i
  | clearCode {i : Instr} (hi : isClear i = true) : CodeClass x c i
  | endCode {i : Instr} (hi : isEnd i = true) : CodeClass x c i
  | reference : CodeClass x c (.ref c)
  | selfReference (hc : c.toNat = x.next.toNat) : CodeClass x c (.kwk c)
  | invalid : CodeClass x c (.inv c)

theorem toNat_setWidth_setWidth_le (m : Nat) (c : Code) : ((c.setWidth m).setWidth 12).toNat ≤ c.toNat := by
  rw [BitVec.toNat_setWidth, BitVec.toNat_setWidth]
  exact (Nat.mod_le _ _).trans (Nat.mod_le _ _)

/-- Cutting a literal to the operand of its row does not raise it. -/
theorem literalOf_decodeLit (x : CodeContext) (c : Code) :
    ∃ d, literalOf (decodeLit x c) = some d ∧ d.toNat ≤ c.toNat := by
  unfold decodeLit
  split
  case h_8 => exact ⟨c, rfl, Nat.le_refl _⟩
  all_goals exact ⟨_, rfl, toNat_setWidth_setWidth_le _ c⟩

theorem isClear_decodeClr (x : CodeContext) : isClear (decodeClr x) = true := by
  unfold decodeClr
  split <;> rfl

theorem isEnd_decodeEoi (x : CodeContext) : isEnd (decodeEoi x) = true := by
  unfold decodeEoi
  split <;> rfl

theorem decodeCode_class (x : CodeContext) (c : Code) : CodeClass x c (decodeCode x c) := by
  unfold decodeCode
  split_ifs with hlit _ _ _ hnext
  · obtain ⟨d, hd, hle⟩ := literalOf_decodeLit x c
    exact .literal hd (Nat.lt_of_le_of_lt hle hlit)
  · exact .clearCode (isClear_decodeClr x)
  · exact .endCode (isEnd_decodeEoi x)
  · exact .reference
  · exact .selfReference hnext
  · exact .invalid

/-- A fetch reads no bit beyond the payload and answers a classified value (40_bit_cursor.md R114, R116). -/
theorem fetch_ok {s : State} {i : Instr} (h : s.fetch = .ok i) :
    s.bitpos.toNat + s.codesize.toNat ≤ 8 * s.payload.length ∧ ∃ c, CodeClass s.context c i := by
  unfold State.fetch decodeAt at h
  split at h
  · cases h
  · next hfit =>
    cases h
    exact ⟨Nat.le_of_not_lt hfit, _, decodeCode_class ..⟩

theorem CodeClass.not_command {x : CodeContext} {c : Code} {i : Instr} (h : CodeClass x c i) : ¬ isCommand i := by
  rintro (rfl | rfl | rfl) <;> cases h <;> contradiction

/-- The states a fetched code can answer with: a code that has a string emits it, the clear code, the end code, the
self-reference, a fault. -/
inductive CodeNext (s : State) : State → Prop
  | present {c : Code} {b : Byte} {rest : List Byte} (hstr : s.str c = some (b :: rest)) :
      CodeNext s (presentCode c b (b :: rest) s)
  | clearCode : CodeNext s (clearCode s)
  | endCode : CodeNext s (endCode s)
  | selfReference {c : Code} {b : Byte} {rest : List Byte} (hc : c.toNat = s.next.toNat) (hprev : s.prevV = true)
      (hstr : s.str s.prevCode = some (b :: rest)) : CodeNext s (selfReference c b (b :: rest) s)
  | noPrevious (c : Code) : CodeNext s (raiseFormatError 1 c s.bitpos (advance s))
  | invalid (c : Code) : CodeNext s (raiseFormatError 2 c s.bitpos (advance s))

/-- A literal is its own string (00_scope.md R11). -/
theorem str_literal {s : State} {c : Code} (h : c.toNat < s.clearcode.toNat) : s.str c = some [c.setWidth 8] := by
  simp only [State.str, chainString, h, if_true]
  rfl

theorem codeNext_of_fetch {s t : State} {i : Instr} (hfetch : s.fetch = .ok i) (h : exec i s = .next t) :
    CodeNext s t := by
  obtain ⟨-, c, hclass⟩ := fetch_ok hfetch
  cases exec_next h with
  | literal hi =>
    cases hclass with
    | literal hi' hd =>
      cases hi.symm.trans hi'
      exact .present (str_literal hd)
    | clearCode hi' | endCode hi' => cases i <;> contradiction
    | reference | selfReference | invalid => cases hi
  | clearCode => exact .clearCode
  | endCode => exact .endCode
  | reference hstr => exact .present hstr
  | selfReference hprev hstr =>
    cases hclass with
    | selfReference hc => exact .selfReference hc hprev hstr
    | literal hi | clearCode hi | endCode hi => cases hi
  | noPrevious => exact .noPrevious _
  | invalid => exact .invalid _
  | busyCommand hi => exact absurd hi hclass.not_command
  | decode => exact absurd (.inl rfl) hclass.not_command
  | deint => exact absurd (.inr (.inl rfl)) hclass.not_command
  | clear => exact absurd (.inr (.inr rfl)) hclass.not_command

/-! ## Strings and present codes -/

/-- A string begins with the index of a literal (41_lzw_codes.md R131). -/
theorem chainString_head {tab : Table} {clear next fuel c : Nat} {str : List Byte} (hclear : clear ≤ 256)
    (h : chainString tab clear next fuel c = some str) : ∃ b rest, str = b :: rest ∧ b.toNat < clear := by
  induction fuel generalizing c str with
  | zero => cases h
  | succ fuel ih =>
    simp only [chainString] at h
    split at h
    · next hc =>
      cases h
      refine ⟨_, _, rfl, ?_⟩
      rw [BitVec.toNat_ofNat]
      omega
    · split at h
      · split at h
        · obtain ⟨str', hstr', rfl⟩ := Option.map_eq_some_iff.1 h
          obtain ⟨b, rest, rfl, hb⟩ := ih hstr'
          exact ⟨b, _, rfl, hb⟩
        · cases h
      · cases h

theorem str_head_lt {s : State} {c : Code} {b : Byte} {rest : List Byte} (hclear : s.clearcode.toNat ≤ 256)
    (h : s.str c = some (b :: rest)) : b.toNat < s.clearcode.toNat := by
  obtain ⟨b', rest', heq, hb⟩ := chainString_head hclear h
  cases heq
  exact hb

theorem present_iff {s : State} {c : Nat} : s.present c = true ↔
    c < s.clearcode.toNat ∨ (s.clearcode.toNat + 2 ≤ c ∧ c < s.next.toNat) := by
  simp [State.present]

/-- Only a present code has a string (00_scope.md R11). -/
theorem present_of_str {s : State} {c : Code} {str : List Byte} (h : s.str c = some str) :
    s.present c.toNat = true := by
  rw [present_iff]
  by_contra hc
  obtain ⟨hlit, hlearned⟩ := not_or.1 hc
  simp only [State.str, chainString, hlit, hlearned, if_false] at h
  cases h

/-- Which codes are present is a matter of CLEARCODE and NEXT. -/
theorem present_mono {s t : State} {c : Nat} (hclear : t.clearcode = s.clearcode) (hnext : s.next.toNat ≤ t.next.toNat)
    (h : s.present c = true) : t.present c = true := by
  rw [present_iff] at h ⊢
  rw [hclear]
  omega

@[simp] theorem addEntry_clearcode (p : Code) (b : Byte) (s : State) : (addEntry p b s).clearcode = s.clearcode := by
  obtain ⟨w, t, n, h⟩ := addEntry_writes p b s
  simp [h]

@[simp] theorem emit_clearcode (str : List Byte) (s : State) : (emit str s).clearcode = s.clearcode := by
  obtain ⟨m, n, h⟩ := emit_writes_output str s
  simp [h]

@[simp] theorem emit_next (str : List Byte) (s : State) : (emit str s).next = s.next := by
  obtain ⟨m, n, h⟩ := emit_writes_output str s
  simp [h]

/-- NEXT after an addition with room in the table (41_lzw_codes.md R132). -/
theorem addEntry_next_room {s : State} (h : s.next.toNat < 4096) (p : Code) (b : Byte) :
    (addEntry p b s).next.toNat = s.next.toNat + 1 := by
  rw [addEntry_room h]
  change (s.next.toNat + 1) % 2 ^ 13 = _
  omega

theorem le_addEntry_next (p : Code) (b : Byte) (s : State) : s.next.toNat ≤ (addEntry p b s).next.toNat := by
  by_cases h : s.next.toNat < 4096
  · rw [addEntry_next_room h]
    omega
  · rw [addEntry_full h]

@[simp] theorem prevOf_valid (c : Code) : (prevOf c).getLsbD 12 = true := by
  change ((1#1 : BitVec 1) ++ c).getLsbD 12 = true
  rw [BitVec.getLsbD_append]
  rfl

@[simp] theorem prevOf_code (c : Code) : (prevOf c).setWidth 12 = c := by
  change ((1#1 : BitVec 1) ++ c).setWidth 12 = c
  rw [BitVec.setWidth_append]
  simp

end Sys2Proof.Machine
end

section
/-! PROOFS. The invariant of a running decode (10_state.md R39, 41_lzw_codes.md R131, 20_memory.md R67), operation by
operation: the cursor, emission, additions to the table, PREV, the table reset. -/

namespace Sys2Proof.Machine

/-! ## The running decode -/

/-- No cell lies outside its buffer and no entry outside the table (20_memory.md R60, R67). -/
def bounded (s : State) : Prop :=
  s.ibuf.within s.params.ibufCap.toNat = true ∧ s.obuf.within s.params.obufCap.toNat = true
  ∧ s.dbuf.within s.params.dbufCap.toNat = true ∧ ∀ e, e ∈ s.tab → e.1 < 4096

/-- What the invariant says of a running DECODE, apart from the canonical form of the memories and the word in
STATUS. -/
structure Running (s : State) : Prop where
  bounds   : bounded s
  config   : s.config.toNat ≤ 1
  opk      : s.opk = false
  synced   : s.synced = false
  work     : workInv s
  table    : tableInv s
  admitted : admittedInv s

/-- CLEARCODE of a legal MINCS (10_state.md R27, R39). -/
theorem pow_mincs_bounds {m c : Nat} (hm : 2 ≤ m ∧ m ≤ 8) (hc : c = 2 ^ m) : 4 ≤ c ∧ c ≤ 256 := by
  subst hc
  exact ⟨Nat.pow_le_pow_right (n := 2) (by decide) hm.1, Nat.pow_le_pow_right (n := 2) (by decide) hm.2⟩

theorem Running.clear_bounds {s : State} (h : Running s) : 4 ≤ s.clearcode.toNat ∧ s.clearcode.toNat ≤ 256 := by
  obtain ⟨hmincs, hclear, -⟩ := h.work
  exact pow_mincs_bounds hmincs hclear

theorem Running.next_bounds {s : State} (h : Running s) :
    s.clearcode.toNat + 2 ≤ s.next.toNat ∧ s.next.toNat ≤ 4096 := by
  obtain ⟨-, -, -, -, -, hlow, hhigh, -⟩ := h.work
  exact ⟨hlow, hhigh⟩

/-- The cursor moves past a code that the payload still holds (40_bit_cursor.md R114, R117). -/
theorem advance_running {s : State} (h : Running s)
    (hfit : s.bitpos.toNat + s.codesize.toNat ≤ 8 * s.payload.length) : Running (advance s) := by
  obtain ⟨hmincs, hclear, hend, hwidth, hwidth', hnext, hnext', hroom, hwide, hprev, hnone, hocnt, -, hfresh⟩ := h.work
  have hbit : (s.bitpos + s.codesize.setWidth 35).toNat ≤ 8 * s.payload.length := by
    rw [BitVec.toNat_add, BitVec.toNat_setWidth]
    have := Nat.mod_le (s.bitpos.toNat + s.codesize.toNat % 2 ^ 35) (2 ^ 35)
    have := Nat.mod_le s.codesize.toNat (2 ^ 35)
    omega
  exact ⟨h.bounds, h.config, h.opk, h.synced,
    ⟨hmincs, hclear, hend, hwidth, hwidth', hnext, hnext', hroom, hwide, hprev, hnone, hocnt, hbit, hfresh⟩,
    h.table, h.admitted⟩

/-- Emission stays below EXPECT and so within OBUF (20_memory.md R67, 41_lzw_codes.md R130). -/
theorem emitIndex_running {s : State} (h : Running s) (b : Byte) : Running (emitIndex b s) := by
  by_cases hlt : s.ocnt.toNat < s.expect.toNat
  · obtain ⟨hmincs, hclear, hend, hwidth, hwidth', hnext, hnext', hroom, hwide, hprev, hnone, -, hbit, hfresh⟩ := h.work
    obtain ⟨hibuf, hobuf, hdbuf, htab⟩ := h.bounds
    obtain ⟨-, hexpect, -⟩ := h.admitted
    have hocnt := emitIndex_ocnt b s hlt
    simp only [emitIndex, hlt, if_true] at hocnt ⊢
    have hobuf' := Memory.within_write (Nat.lt_of_lt_of_le hlt hexpect) b hobuf
    exact ⟨⟨hibuf, hobuf', hdbuf, htab⟩, h.config, h.opk, h.synced,
      ⟨hmincs, hclear, hend, hwidth, hwidth', hnext, hnext', hroom, hwide, hprev, hnone, hocnt ▸ hlt, hbit, hfresh⟩,
      h.table, h.admitted⟩
  · simpa only [emitIndex, hlt, if_false] using h

theorem emit_running {s : State} (h : Running s) (str : List Byte) : Running (emit str s) := by
  induction str generalizing s with
  | nil => exact h
  | cons b str ih => exact ih (emitIndex_running h b)

/-- Grow keeps the width the least that holds NEXT (41_lzw_codes.md R133, 10_state.md R39). -/
theorem grow_keeps_width {m w w' n : Nat} (hroom : n < 4096) (hlow : m + 1 ≤ w) (hhigh : w ≤ 12)
    (hfit : n < 2 ^ w ∨ (n = 4096 ∧ w = 12)) (hleast : m + 1 < w → 2 ^ (w - 1) ≤ n)
    (hw' : w' = if n + 1 = 2 ^ w ∧ w < 12 then w + 1 else w) :
    m + 1 ≤ w' ∧ w' ≤ 12 ∧ (n + 1 < 2 ^ w' ∨ (n + 1 = 4096 ∧ w' = 12)) ∧ (m + 1 < w' → 2 ^ (w' - 1) ≤ n + 1) := by
  have hlt : n < 2 ^ w := hfit.resolve_right (by omega)
  split at hw' <;> rw [hw']
  · next hgrow =>
    have hdouble : 2 ^ (w + 1) = 2 * 2 ^ w := Nat.pow_succ'
    exact ⟨by omega, by omega, .inl (by omega), fun _ => Nat.le_of_eq hgrow.1.symm⟩
  · next hgrow =>
    refine ⟨hlow, hhigh, ?_, fun h => (hleast h).trans (Nat.le_succ n)⟩
    by_cases hfull : n + 1 = 2 ^ w
    · have hw : w = 12 := by omega
      subst hw
      exact .inr ⟨hfull, rfl⟩
    · exact .inl (by omega)

/-- CODESIZE after an addition (41_lzw_codes.md R133). -/
theorem grown_codesize_toNat (n : Nat) (w : BitVec 4) :
    (if n = 2 ^ w.toNat ∧ w.toNat < 12 then w + 1 else w).toNat
      = if n = 2 ^ w.toNat ∧ w.toNat < 12 then w.toNat + 1 else w.toNat := by
  split
  · next hgrow =>
    change (w.toNat + 1) % 2 ^ 4 = _
    omega
  · rfl

/-- An addition keeps the width, and the new entry's chain descends (41_lzw_codes.md R131 to R133). -/
theorem addEntry_running {s : State} (h : Running s) (hv : s.prevV = true) {b : Byte}
    (hb : b.toNat < s.clearcode.toNat) : Running (addEntry s.prevCode b s) := by
  by_cases hfull : s.next.toNat < 4096
  case neg => rwa [addEntry_full hfull]
  obtain ⟨hmincs, hclear, hend, hwidth, hwidth', hnext, -, hroom, hwide, hprev, hnone, hocnt, hbit, -⟩ := h.work
  obtain ⟨hibuf, hobuf, hdbuf, htab⟩ := h.bounds
  obtain ⟨hliterals, hlearned⟩ := h.table
  obtain ⟨hbelow, hnotClear, hnotEnd⟩ := hprev hv
  have hgrown := addEntry_next_room hfull s.prevCode b
  obtain ⟨hlow', hhigh', hroom', hwide'⟩ := grow_keeps_width hfull hwidth hwidth' hroom hwide (grown_codesize_toNat _ _)
  rw [addEntry_room hfull] at hgrown ⊢
  simp only [setCodesize_next, setTable_next] at hgrown
  refine ⟨⟨hibuf, hobuf, hdbuf, ?_⟩, h.config, h.opk, h.synced, ?_, ⟨?_, ?_⟩, h.admitted⟩
  · intro e he
    obtain rfl | he := Store.mem_write he
    · exact hfull
    · exact htab e he
  · simp only [workInv, setCodesize_next, setTable_next, hgrown]
    exact ⟨hmincs, hclear, hend, hlow', hhigh', by simp; omega, by omega, hroom', hwide',
      fun _ => ⟨Nat.lt_succ_of_lt hbelow, hnotClear, hnotEnd⟩, hnone, hocnt, hbit,
      fun hv' => absurd (hv.symm.trans hv') (by decide)⟩
  · intro k hk
    exact (Store.read_write_other (by simp at hk; omega) _ _).trans (hliterals k hk)
  · intro c hc hlt
    simp only [setCodesize_next, setTable_next, hgrown] at hlt
    obtain rfl | hne := eq_or_ne c s.next.toNat
    · exact ⟨s.prevCode, b, Store.read_write_same .., hbelow, hnotClear, hnotEnd, hb⟩
    · obtain ⟨p, b', hread, hrest⟩ := hlearned c hc (by omega)
      exact ⟨p, b', (Store.read_write_other hne _ _).trans hread, hrest⟩

/-- The code just decoded becomes the previous one (10_state.md R36). -/
theorem setPrev_running {s : State} (h : Running s) {c : Code} (hc : s.present c.toNat = true) :
    Running (setPrev (prevOf c) s) := by
  obtain ⟨hmincs, hclear, hend, hwidth, hwidth', hnext, hnext', hroom, hwide, -, -, hocnt, hbit, -⟩ := h.work
  have hv : (setPrev (prevOf c) s).prevV = true := prevOf_valid c
  have hcode : (setPrev (prevOf c) s).prevCode = c := prevOf_code c
  have hpresent := present_iff.1 hc
  refine ⟨h.bounds, h.config, h.opk, h.synced, ⟨hmincs, hclear, hend, hwidth, hwidth', hnext, hnext', hroom, hwide,
    fun _ => ?_, fun hv' => absurd (hv.symm.trans hv') (by decide), hocnt, hbit,
    fun hv' => absurd (hv.symm.trans hv') (by decide)⟩, h.table, h.admitted⟩
  simp only [hcode, setPrev_next, setPrev_clearcode, setPrev_endcode]
  omega

/-- Every entry of a table after a reset is an entry of the table (10_state.md R40). -/
theorem mem_withLiterals_lt {clear : Nat} {t : Table} (hclear : clear ≤ 4096) (ht : ∀ e, e ∈ t → e.1 < 4096)
    {e : Nat × TabEntry} (he : e ∈ withLiterals clear t) : e.1 < 4096 := by
  obtain he | he := List.mem_append.1 he
  · simp only [literalEntries, List.mem_map, List.mem_range] at he
    obtain ⟨k, hk, rfl⟩ := he
    exact Nat.lt_of_lt_of_le hk hclear
  · exact ht e (List.mem_filter.1 he).1

/-- What DecodeInit and a clear code find before the table reset. -/
structure ReadyForTable (s : State) : Prop where
  bounds   : bounded s
  config   : s.config.toNat ≤ 1
  opk      : s.opk = false
  synced   : s.synced = false
  mincs    : 2 ≤ s.mincs.toNat ∧ s.mincs.toNat ≤ 8
  clear    : s.clearcode.toNat = 2 ^ s.mincs.toNat
  endcode  : s.endcode.toNat = s.clearcode.toNat + 1
  ocnt     : s.ocnt.toNat ≤ s.expect.toNat
  bitpos   : s.bitpos.toNat ≤ 8 * s.payload.length
  admitted : admittedInv s

/-- The initial width, NEXT and literal entries, written over any such state, meet the invariant. -/
theorem initialTable_running {s : State} (h : ReadyForTable s) {t : Table} {n : BitVec 13} {w : BitVec 4}
    (ht : ∀ e, e ∈ t → e.1 < 4096) (hn : n.toNat = s.clearcode.toNat + 2) (hw : w.toNat = s.mincs.toNat + 1)
    (hliterals : ∀ k, k < s.clearcode.toNat → Store.read k t = some ⟨none, BitVec.ofNat 8 k⟩) :
    Running (setPrev 0 (setCodesize w (setTable t n s))) := by
  obtain ⟨hibuf, hobuf, hdbuf, -⟩ := h.bounds
  obtain ⟨hmincs2, hmincs8⟩ := h.mincs
  obtain ⟨hclear4, hclear256⟩ := pow_mincs_bounds h.mincs h.clear
  have hdouble : 2 ^ (s.mincs.toNat + 1) = 2 * 2 ^ s.mincs.toNat := Nat.pow_succ'
  have hclear := h.clear
  have hv : (setPrev 0 (setCodesize w (setTable t n s))).prevV = false := by
    change (0 : BitVec 13).getLsbD 12 = false
    decide
  refine ⟨⟨hibuf, hobuf, hdbuf, ht⟩, h.config, h.opk, h.synced, ?_, ⟨hliterals, ?_⟩, h.admitted⟩
  · simp only [workInv, hv, setPrev_codesize, setCodesize_codesize, setPrev_next, setCodesize_next, setTable_next, hn,
      hw]
    exact ⟨h.mincs, h.clear, h.endcode, Nat.le_refl _, by omega, Nat.le_refl _, by omega,
      .inl (by omega), fun h => absurd h (Nat.lt_irrefl _), nofun, fun _ => rfl, h.ocnt, h.bitpos, fun _ => rfl⟩
  · intro c hc hlt
    exact absurd (hn ▸ hlt) (Nat.not_lt.2 hc)

/-- A table reset gives the initial state of the working registers (10_state.md R41). -/
theorem tableReset_running {s : State} (h : ReadyForTable s) : Running (tableReset s) := by
  obtain ⟨hclear4, hclear256⟩ := pow_mincs_bounds h.mincs h.clear
  obtain ⟨-, -, -, htab⟩ := h.bounds
  obtain ⟨hmincs2, hmincs8⟩ := h.mincs
  refine initialTable_running h (fun e he => mem_withLiterals_lt (by omega) htab he) ?_ ?_
    (fun k hk => (read_withLiterals ..).trans (if_pos hk))
  · rw [BitVec.toNat_ofNat]
    omega
  · rw [BitVec.toNat_ofNat]
    omega

end Sys2Proof.Machine
end

section
/-! PROOFS. Every step keeps the invariant of the machine: codes, commands, host actions. -/

namespace Sys2Proof.Machine

/-! ## Every step keeps the invariant -/

/-- The invariant apart from the canonical form of the memories and the word in STATUS, which `step_canonical` and
`step_status` keep from every state. -/
structure Safe (s : State) : Prop where
  bounds  : bounded s
  config  : s.config.toNat ≤ 1
  running : s.busy = true → Running s

theorem inv_iff {s : State} : Inv s ↔ canonical s ∧ statusInv s.status ∧ Safe s := by
  constructor
  · rintro ⟨⟨hibuf, hobuf, hdbuf, htab, hbounds⟩, hstatus, hconfig, hbusy⟩
    refine ⟨⟨hibuf, hobuf, hdbuf, htab⟩, hstatus, hbounds, hconfig, fun hb => ?_⟩
    obtain ⟨hopk, hsynced, hwork, htable, hadmitted⟩ := hbusy hb
    exact ⟨hbounds, hconfig, hopk, hsynced, hwork, htable, hadmitted⟩
  · rintro ⟨⟨hibuf, hobuf, hdbuf, htab⟩, hstatus, hsafe⟩
    refine ⟨⟨hibuf, hobuf, hdbuf, htab, hsafe.bounds⟩, hstatus, hsafe.config, fun hb => ?_⟩
    have h := hsafe.running hb
    exact ⟨h.opk, h.synced, h.work, h.table, h.admitted⟩

theorem Running.safe {s : State} (h : Running s) : Safe s := ⟨h.bounds, h.config, fun _ => h⟩

/-- At rest only the bounds and CONFIG matter. -/
theorem safe_atRest {s : State} (hb : s.busy = false) (hbounds : bounded s) (hconfig : s.config.toNat ≤ 1) : Safe s :=
  ⟨hbounds, hconfig, fun hb' => absurd (hb.symm.trans hb') (by decide)⟩

theorem haltEnd_busy (s : State) : (haltEnd s).busy = false := by
  change (endWord s.isShort).getLsbD 0 = false
  cases s.isShort <;> decide

theorem haltCount_busy (s : State) : (haltCount s).busy = false := by
  change countWord.getLsbD 0 = false
  decide

theorem haltTrunc_busy (s : State) : (haltTrunc s).busy = false := by
  change truncWord.getLsbD 0 = false
  decide

theorem haltDeint_busy (noop : Bool) (s : State) : (haltDeint noop s).busy = false := by
  change (deintWord noop).getLsbD 0 = false
  cases noop <;> decide

theorem errorWord_busy (cause : BitVec 3) : (errorWord cause).getLsbD 0 = false := by
  revert cause
  decide

theorem raiseFormatError_busy (cause : BitVec 3) (c : Code) (pos : BitVec 35) (s : State) :
    (raiseFormatError cause c pos s).busy = false := errorWord_busy cause

theorem leaveHalt_busy (s : State) : (leaveHalt s).busy = false := by
  change (0 : BitVec 32).getLsbD 0 = false
  decide

/-! ### The codes -/

theorem presentCode_running {s : State} (h : Running s) {c : Code} {b : Byte} {rest : List Byte}
    (hfit : s.bitpos.toNat + s.codesize.toNat ≤ 8 * s.payload.length) (hstr : s.str c = some (b :: rest)) :
    Running (presentCode c b (b :: rest) s) := by
  have hpresent := present_of_str hstr
  have hb : b.toNat < s.clearcode.toNat := str_head_lt h.clear_bounds.2 hstr
  have hemit : Running (emit (b :: rest) (advance s)) := emit_running (advance_running h hfit) _
  have hpresent' : (emit (b :: rest) (advance s)).present c.toNat = true :=
    present_mono (emit_clearcode ..) (by rw [emit_next]) hpresent
  unfold presentCode
  dsimp only
  split
  · next hprev =>
    refine setPrev_running (addEntry_running hemit hprev ?_)
      (present_mono (addEntry_clearcode ..) (le_addEntry_next ..) hpresent')
    rwa [emit_clearcode]
  · exact setPrev_running hemit hpresent'

theorem selfReference_running {s : State} (h : Running s) {c : Code} {b : Byte} {rest : List Byte}
    (hfit : s.bitpos.toNat + s.codesize.toNat ≤ 8 * s.payload.length) (hc : c.toNat = s.next.toNat)
    (hprev : s.prevV = true) (hstr : s.str s.prevCode = some (b :: rest)) :
    Running (selfReference c b (b :: rest) s) := by
  have hb : b.toNat < s.clearcode.toNat := str_head_lt h.clear_bounds.2 hstr
  have hroom : (advance s).next.toNat < 4096 := hc ▸ c.isLt
  have hadd : Running (addEntry s.prevCode b (advance s)) := addEntry_running (advance_running h hfit) hprev hb
  refine setPrev_running (emit_running hadd _) (present_iff.2 (.inr ?_))
  rw [emit_clearcode, emit_next, addEntry_clearcode, addEntry_next_room hroom, hc]
  exact ⟨h.next_bounds.1, Nat.lt_succ_self _⟩

theorem Running.readyForTable {s : State} (h : Running s) : ReadyForTable s := by
  obtain ⟨hmincs, hclear, hend, -, -, -, -, -, -, -, -, hocnt, hbit, -⟩ := h.work
  exact ⟨h.bounds, h.config, h.opk, h.synced, hmincs, hclear, hend, hocnt, hbit, h.admitted⟩

theorem CodeNext.safe {s t : State} (h : CodeNext s t) (hs : Running s)
    (hfit : s.bitpos.toNat + s.codesize.toNat ≤ 8 * s.payload.length) : Safe t := by
  cases h with
  | present hstr => exact (presentCode_running hs hfit hstr).safe
  | clearCode => exact (tableReset_running (advance_running hs hfit).readyForTable).safe
  | endCode => exact safe_atRest (haltEnd_busy _) hs.bounds hs.config
  | selfReference hc hprev hstr => exact (selfReference_running hs hfit hc hprev hstr).safe
  | noPrevious | invalid => exact safe_atRest (raiseFormatError_busy ..) hs.bounds hs.config

theorem engineStep_safe {s t : State} (hs : Safe s) (h : engineStep s = .next t) : Safe t := by
  obtain ⟨hb, hopk, -⟩ | ⟨hb, -, hstep⟩ | ⟨-, rfl⟩ := engineStep_next h
  · exact absurd ((hs.running hb).opk.symm.trans hopk) (by decide)
  · obtain ⟨-, rfl⟩ | ⟨-, -, rfl⟩ | ⟨-, i, hfetch, hexec⟩ := decodeStep_next hstep
    · exact safe_atRest (haltCount_busy s) hs.bounds hs.config
    · exact safe_atRest (haltTrunc_busy s) hs.bounds hs.config
    · exact (codeNext_of_fetch hfetch hexec).safe (hs.running hb) (fetch_ok hfetch).1
  · exact hs

/-! ### The commands -/

theorem settleDecode_written_operands (s : State) : ∀ r, r ∈ decodeOperands → r ∉ (settleDecode s).unspec :=
  fun _ hr hunspec => ((mem_stillUnspec ..).1 hunspec).2 hr

/-- A DECODE uses its operands and the registers DecodeInit writes. -/
theorem mem_decode_registers : ∀ r, r ∈ [RegName.mincs, .expect, .ilen, .ocnt, .bitpos, .codesize, .next, .prev,
    .clearcode, .endcode] → r ∈ decodeOperands ∨ r ∈ decodeWrites := by
  decide

/-- A DECODE accepted with a legal MINCS runs (43_host_commands.md R184, 41_lzw_codes.md R125). -/
theorem decodeInit_running {s : State} (hbounds : bounded s) (hconfig : s.config.toNat ≤ 1)
    (hfits : s.decodeFits = true) (hlegal : s.mincsLegal = true) (hwritten : ∀ r, r ∈ decodeOperands → r ∉ s.unspec) :
    Running (decodeInit (beginCommand false s)) := by
  simp only [State.decodeFits, State.mincsLegal, Bool.and_eq_true, decide_eq_true_eq] at hfits hlegal
  have hpow : 2 ^ s.mincs.toNat ≤ 2 ^ 8 := Nat.pow_le_pow_right (by decide) hlegal.2
  have hclear : (BitVec.ofNat 9 (2 ^ s.mincs.toNat)).toNat = 2 ^ s.mincs.toNat :=
    Nat.mod_eq_of_lt (by omega)
  have hend : (BitVec.ofNat 9 (2 ^ s.mincs.toNat + 1)).toNat = 2 ^ s.mincs.toNat + 1 :=
    Nat.mod_eq_of_lt (by omega)
  have hopk : (busyWord false).getLsbD 8 = false := by decide
  refine tableReset_running ⟨hbounds, hconfig, hopk, rfl, hlegal, hclear, hend.trans (congrArg Nat.succ hclear.symm),
    Nat.zero_le _, Nat.zero_le _, hfits.1, hfits.2, fun r hr hunspec => ?_⟩
  obtain ⟨hunspec', hdecode⟩ := (mem_stillUnspec ..).1 hunspec
  obtain hr | hr := mem_decode_registers r hr
  · exact hwritten r hr hunspec'
  · exact hdecode hr

theorem startDecode_safe {s : State} (hs : Safe s) (hfits : (settleDecode s).decodeFits = true) :
    Safe (startDecode (settleDecode s)) := by
  unfold startDecode
  split
  · next hlegal =>
    exact (decodeInit_running (s := settleDecode s) hs.bounds hs.config hfits hlegal
      (settleDecode_written_operands s)).safe
  · exact safe_atRest (raiseFormatError_busy ..) hs.bounds hs.config

/-- A row of the interlaced image goes to a row of the image (42_deinterlace.md R161). -/
theorem rowMap_lt {h r : Nat} (hr : r < h) : rowMap h r < h := by
  unfold rowMap passRows1 passRows2 passRows3
  split_ifs <;> omega

/-- An index of the interlaced image goes to a cell of the image (42_deinterlace.md R163). -/
theorem deintCell_lt {w h i : Nat} (hi : i < w * h) : deintCell w h i < w * h := by
  have hw : 0 < w := Nat.pos_of_mul_pos_right (Nat.zero_lt_of_lt hi)
  have hrow : rowMap h (i / w) + 1 ≤ h := rowMap_lt (Nat.div_lt_of_lt_mul hi)
  calc deintCell w h i < rowMap h (i / w) * w + w := Nat.add_lt_add_left (Nat.mod_lt i hw) _
    _ = w * (rowMap h (i / w) + 1) := by ring
    _ ≤ w * h := Nat.mul_le_mul_left w hrow

theorem copiedOutput_within {cap m : Nat} {dest : Nat → Nat} (s : State) (h : ∀ i, i < m → dest i < cap) :
    (copiedOutput s dest m).within cap = true :=
  copiedOutput_induct (P := fun mem => mem.within cap = true) s dest m rfl fun _ i v hi hmem =>
    Memory.within_write (h i hi) v hmem

/-- The admission test keeps a DEINT within DBUF (20_memory.md R67, 43_host_commands.md R183). -/
theorem deinterlace_safe {s : State} (hbounds : bounded s) (hconfig : s.config.toNat ≤ 1) (hfits : s.deintFits = true) :
    Safe (deinterlace s) := by
  obtain ⟨hibuf, hobuf, -, htab⟩ := hbounds
  simp only [State.deintFits, Bool.and_eq_true] at hfits
  obtain ⟨-, hfits⟩ := hfits
  unfold deinterlace
  split at hfits
  · next hnoop =>
    simp only [hnoop, if_true]
    refine safe_atRest (haltDeint_busy ..) ⟨hibuf, hobuf, copiedOutput_within s fun i hi => ?_, htab⟩ hconfig
    exact Nat.lt_of_lt_of_le hi (of_decide_eq_true hfits)
  · next hnoop =>
    simp only [hnoop, Bool.false_eq_true, if_false]
    refine safe_atRest (haltDeint_busy ..) ⟨hibuf, hobuf, copiedOutput_within s fun i hi => ?_, htab⟩ hconfig
    exact Nat.lt_of_lt_of_le (deintCell_lt (Nat.lt_of_lt_of_le hi (Nat.min_le_right ..))) (of_decide_eq_true hfits)

theorem command_safe {i : Instr} {s t : State} (hi : isCommand i) (h : ExecNext s i t) (hs : Safe s) : Safe t := by
  cases h with
  | decode _ hfits => exact startDecode_safe hs hfits
  | deint _ hfits => exact deinterlace_safe (s := beginCommand true (settleDeint s)) hs.bounds hs.config hfits
  | clear => exact safe_atRest (leaveHalt_busy s) hs.bounds hs.config
  | busyCommand => exact hs
  | literal hi' | clearCode hi' | endCode hi' => obtain rfl | rfl | rfl := hi <;> cases hi'
  | reference | selfReference | noPrevious | invalid => obtain hi | hi | hi := hi <;> cases hi

/-! ### The host -/

theorem writeRegister_safe {s : State} (hs : Safe s) (hb : s.busy = false) (n v : Nat) :
    Safe (writeRegister n v s) := by
  have hb' : (writeRegister n v s).busy = false := (congrArg (·.getLsbD 0) (writeRegister_status n v s)).trans hb
  unfold writeRegister at hb' ⊢
  split
  · refine safe_atRest hb hs.bounds ?_
    change v % 2 % 2 ^ 32 ≤ 1
    omega
  all_goals exact safe_atRest hb hs.bounds hs.config

theorem writeBuffer_safe {s : State} (hs : Safe s) (hb : s.busy = false) {sp : Space} {a : Nat} (v : Nat)
    (ha : a < s.capacity sp) : Safe (writeBuffer sp a v s) := by
  obtain ⟨hibuf, hobuf, hdbuf, htab⟩ := hs.bounds
  cases sp with
  | ibuf => exact safe_atRest hb ⟨Memory.within_write ha _ hibuf, hobuf, hdbuf, htab⟩ hs.config
  | obuf => exact safe_atRest hb ⟨hibuf, Memory.within_write ha _ hobuf, hdbuf, htab⟩ hs.config
  | dbuf => exact hs

theorem hardReset_safe (s : State) : Safe (hardReset s) :=
  safe_atRest (leaveHalt_busy s) ⟨rfl, rfl, rfl, nofun⟩ (by change 0 ≤ 1; decide)

/-- What the last read returned, the free values drawn and the host's coming moves are nothing to the invariant. -/
theorem Safe.hostFields {s : State} (hs : Safe s) (read : Option (BitVec 35)) (n : Nat) (moves : List HostMove) :
    Safe { s with lastRead := read, draws := n, script := moves } := by
  refine ⟨hs.bounds, hs.config, fun hb => ?_⟩
  have h := hs.running hb
  exact ⟨h.bounds, h.config, h.opk, h.synced, h.work, h.table, h.admitted⟩

/-- A read of STATUS makes the results readable at rest only (20_memory.md R71 b). -/
theorem readStatus_safe {s : State} (hs : Safe s) : Safe (readStatus s) := by
  refine ⟨hs.bounds, hs.config, fun hb => ?_⟩
  have hb' : s.busy = true := hb
  have h := hs.running hb'
  have hsynced : (s.synced || !s.busy) = false := by simp [h.synced, hb']
  exact ⟨h.bounds, h.config, h.opk, hsynced, h.work, h.table, h.admitted⟩

theorem HostNext.safe {s t : State} (h : HostNext s t) (hs : Safe s) : Safe t := by
  cases h with
  | command hi h => exact command_safe hi h hs
  | ignored => exact hs
  | readStatus => exact readStatus_safe hs
  | read v => exact hs.hostFields (some v) s.draws s.script
  | draw => exact hs.hostFields _ (s.draws + 1) s.script
  | writeRegister n v hb => exact writeRegister_safe hs hb n v
  | writeBuffer v hb ha => exact writeBuffer_safe hs hb v ha
  | reset => exact hardReset_safe s

theorem setScript_safe {s : State} (hs : Safe s) (moves : List HostMove) : Safe (setScript moves s) :=
  hs.hostFields s.lastRead s.draws moves

theorem engineTurn_safe {s u : State} (h : engineTurn s u) (hs : Safe s) : Safe u := by
  obtain ⟨-, rfl⟩ | ⟨rest, -, rfl⟩ | ⟨-, -, rfl⟩ := h
  · exact hs
  · exact setScript_safe hs rest
  · exact hs

theorem step_safe {s t : State} (h : step s = .next t) (hs : Safe s) : Safe t := by
  obtain ⟨u, hturn, hstep⟩ | ⟨a, rest, -, hact⟩ | ⟨rest, -, -, rfl⟩ := step_next h
  · exact engineStep_safe (engineTurn_safe hturn hs) hstep
  · exact (hostAct_next hact).safe (setScript_safe hs rest)
  · exact readStatus_safe (setScript_safe hs rest)

/-- Settles O42: the memories stay canonical and STATUS legal from every state that has them so; the rest of the
invariant is kept by every code, command and host action of a safe state. -/
theorem everyStepKeepsInvariant : Obligations.EveryStepKeepsInvariant := by
  intro s t hinv h
  obtain ⟨hcanonical, hstatus, hsafe⟩ := inv_iff.1 hinv
  exact inv_iff.2 ⟨step_canonical h hcanonical, statusStaysLegal s t hstatus h, step_safe h hsafe⟩

end Sys2Proof.Machine
end

section
/-! PROOFS. A decode depends on its operands and payload alone (10_state.md R49): how two decodes start, and how they run. -/

namespace Sys2Proof.Machine

/-! ## The answers of `ExecNext` are answers of the instruction -/

theorem exec_literal {i : Instr} {c : Code} (hi : literalOf i = some c) (s : State) :
    exec i s = .next (literalCode c s) := by
  cases i with
  | lit | litM2 | litM3 | litM4 | litM5 | litM6 | litM7 | litM8 => cases hi; rfl
  | _ => cases hi

theorem exec_clearCode {i : Instr} (hi : isClear i = true) (s : State) : exec i s = .next (clearCode s) := by
  cases i with
  | clr | clrM2 | clrM3 | clrM4 | clrM5 | clrM6 | clrM7 | clrM8 => rfl
  | _ => cases hi

theorem exec_endCode {i : Instr} (hi : isEnd i = true) (s : State) : exec i s = .next (endCode s) := by
  cases i with
  | eoi | eoiM2 | eoiM3 | eoiM4 | eoiM5 | eoiM6 | eoiM7 | eoiM8 => rfl
  | _ => cases hi

/-- The converse of `exec_next`. -/
theorem ExecNext.exec_eq {i : Instr} {s t : State} (h : ExecNext s i t) : exec i s = .next t := by
  cases h with
  | literal hi => exact exec_literal hi s
  | clearCode hi => exact exec_clearCode hi s
  | endCode hi => exact exec_endCode hi s
  | reference hstr =>
    change referenceCode _ s = _
    simp only [referenceCode, hstr]
  | selfReference hprev hstr =>
    change kwkCode _ s = _
    simp only [kwkCode, hprev, hstr, if_true]
  | noPrevious hprev =>
    change kwkCode _ s = _
    simp only [kwkCode, hprev, Bool.false_eq_true, if_false]
  | invalid => rfl
  | busyCommand hi hb =>
    obtain rfl | rfl | rfl := hi
    · exact admitted_busy hb
    · exact admitted_busy hb
    · change execClear s = _
      simp only [execClear, hb, if_true]
  | decode hb hfits => exact admitted_accepts hb hfits
  | deint hb hfits => exact admitted_accepts hb hfits
  | clear hb =>
    change execClear s = _
    simp only [execClear, hb, Bool.false_eq_true, if_false]

/-! ## Two decodes that cannot be told apart: what they read -/

section
variable {s t : State} (h : sameDecode s t)
include h

theorem sameDecode.status_eq : t.status = s.status := h.1

theorem sameDecode.busy_eq : t.busy = s.busy := congrArg (·.getLsbD 0) h.status_eq

theorem sameDecode.opk_eq : t.opk = s.opk := congrArg (·.getLsbD 8) h.status_eq

theorem sameDecode.fetch_eq : t.fetch = s.fetch := by
  obtain ⟨-, hmincs, -, hpayload, hbitpos, hcodesize, hnext, -, hclear, hend, -⟩ := h
  simp only [State.fetch, State.context, hmincs, hpayload, hbitpos, hcodesize, hnext, hclear, hend]

theorem sameDecode.bitpos_eq : t.bitpos = s.bitpos := by
  obtain ⟨-, -, -, -, hbitpos, -⟩ := h
  exact hbitpos

theorem sameDecode.prev_eq : t.prev = s.prev := by
  obtain ⟨-, -, -, -, -, -, -, hprev, -⟩ := h
  exact hprev

theorem sameDecode.prevV_eq : t.prevV = s.prevV := congrArg (·.getLsbD 12) h.prev_eq

theorem sameDecode.prevCode_eq : t.prevCode = s.prevCode := congrArg (·.setWidth 12) h.prev_eq

theorem sameDecode.output_eq : t.ocnt = s.ocnt ∧ t.expect = s.expect := by
  obtain ⟨-, -, hexpect, -, -, -, -, -, -, -, hocnt, -⟩ := h
  exact ⟨hocnt, hexpect⟩

end

/-- Str reads the present learned entries only (00_scope.md R11). -/
theorem chainString_congr {tab tab' : Table} {clear next : Nat}
    (h : ∀ c, clear + 2 ≤ c → c < next → Store.read c tab' = Store.read c tab) (fuel c : Nat) :
    chainString tab' clear next fuel c = chainString tab clear next fuel c := by
  induction fuel generalizing c with
  | zero => rfl
  | succ fuel ih =>
    simp only [chainString, ih]
    split
    · rfl
    · split
      · next hc => rw [h c hc.1 hc.2]
      · rfl

theorem sameDecode.str_eq {s t : State} (h : sameDecode s t) (c : Code) : t.str c = s.str c := by
  obtain ⟨-, -, -, -, -, -, hnext, -, hclear, -, -, -, -, -, htab⟩ := h
  simp only [State.str, hnext, hclear]
  exact chainString_congr htab _ _

/-- CLEARCODE + 2 fits NEXT, so that no code from there on is below the initial NEXT (10_state.md R41). -/
theorem not_learned_initially {clear : BitVec 9} {c : Nat} (hc : clear.toNat + 2 ≤ c) :
    ¬ c < (BitVec.ofNat 13 (clear.toNat + 2)).toNat := by
  have := clear.isLt
  rw [BitVec.toNat_ofNat]
  omega

/-! ## What each operation does to two such decodes -/

section
variable {s t : State} (h : sameDecode s t)
include h

theorem setStatus_sameDecode (w : BitVec 32) : sameDecode (setStatus w s) (setStatus w t) := by
  obtain ⟨-, hrest⟩ := h
  exact ⟨rfl, hrest⟩

theorem advance_sameDecode : sameDecode (advance s) (advance t) := by
  obtain ⟨hstatus, hmincs, hexpect, hpayload, hbitpos, hcodesize, hrest⟩ := h
  have hbitpos' : t.bitpos + t.codesize.setWidth 35 = s.bitpos + s.codesize.setWidth 35 := by rw [hbitpos, hcodesize]
  exact ⟨hstatus, hmincs, hexpect, hpayload, hbitpos', hcodesize, hrest⟩

theorem setPrev_sameDecode (p : BitVec 13) : sameDecode (setPrev p s) (setPrev p t) := by
  obtain ⟨hstatus, hmincs, hexpect, hpayload, hbitpos, hcodesize, hnext, -, hrest⟩ := h
  exact ⟨hstatus, hmincs, hexpect, hpayload, hbitpos, hcodesize, hnext, rfl, hrest⟩

theorem setCodesize_sameDecode (w : BitVec 4) : sameDecode (setCodesize w s) (setCodesize w t) := by
  obtain ⟨hstatus, hmincs, hexpect, hpayload, hbitpos, -, hrest⟩ := h
  exact ⟨hstatus, hmincs, hexpect, hpayload, hbitpos, rfl, hrest⟩

theorem setRecord_sameDecode (c : Code) (pos : BitVec 35) : sameDecode (setRecord c pos s) (setRecord c pos t) := by
  obtain ⟨hstatus, hmincs, hexpect, hpayload, hbitpos, hcodesize, hnext, hprev, hclear, hend, hocnt, -, -, hrest⟩ := h
  exact ⟨hstatus, hmincs, hexpect, hpayload, hbitpos, hcodesize, hnext, hprev, hclear, hend, hocnt, rfl, rfl, hrest⟩

/-- Two tables that agree on the learned entries below the new NEXT serve as well as each other. -/
theorem setTable_sameDecode {m m' : Table} {n : BitVec 13}
    (htab : ∀ c, s.clearcode.toNat + 2 ≤ c → c < n.toNat → Store.read c m' = Store.read c m) :
    sameDecode (setTable m n s) (setTable m' n t) := by
  obtain ⟨hstatus, hmincs, hexpect, hpayload, hbitpos, hcodesize, -, hprev, hclear, hend, hocnt, hecode, hepos, hobuf,
    -⟩ := h
  exact ⟨hstatus, hmincs, hexpect, hpayload, hbitpos, hcodesize, rfl, hprev, hclear, hend, hocnt, hecode, hepos, hobuf,
    htab⟩

/-- The index stored at OCNT is the same, and so is what lies below (41_lzw_codes.md R130). -/
theorem emitIndex_sameDecode (b : Byte) : sameDecode (emitIndex b s) (emitIndex b t) := by
  obtain ⟨hocnt, hexpect⟩ := h.output_eq
  by_cases hlt : s.ocnt.toNat < s.expect.toNat
  · have hocnt' := emitIndex_ocnt b s hlt
    simp only [emitIndex, hocnt, hexpect, hlt, if_true, setOutput_ocnt] at hocnt' ⊢
    obtain ⟨hstatus, hmincs, -, hpayload, hbitpos, hcodesize, hnext, hprev, hclear, hend, -, hecode, hepos, hobuf,
      htab⟩ := h
    refine ⟨hstatus, hmincs, hexpect, hpayload, hbitpos, hcodesize, hnext, hprev, hclear, hend, rfl, hecode, hepos,
      fun a ha => ?_, htab⟩
    simp only [setOutput_obuf, setOutput_ocnt, hocnt'] at ha ⊢
    obtain rfl | hne := eq_or_ne a s.ocnt.toNat
    · rw [Store.read_write_same, Store.read_write_same]
    · rw [Store.read_write_other hne, Store.read_write_other hne, hobuf a (by omega)]
  · simpa only [emitIndex, hocnt, hexpect, hlt, if_false] using h

/-- The entry added at NEXT is the same (41_lzw_codes.md R132, R133). -/
theorem addEntry_sameDecode (p : Code) (b : Byte) : sameDecode (addEntry p b s) (addEntry p b t) := by
  obtain ⟨-, -, -, -, -, hcodesize, hnext, -, -, -, -, -, -, -, htab⟩ := id h
  by_cases hroom : s.next.toNat < 4096
  · have hgrown := addEntry_next_room hroom p b
    rw [addEntry_room hroom] at hgrown ⊢
    rw [addEntry_room (s := t) (by rwa [hnext]), hnext, hcodesize]
    refine setCodesize_sameDecode (setTable_sameDecode h fun c hc hlt => ?_) _
    simp only [setCodesize_next, setTable_next] at hgrown
    obtain rfl | hne := eq_or_ne c s.next.toNat
    · rw [Store.read_write_same, Store.read_write_same]
    · rw [Store.read_write_other hne, Store.read_write_other hne, htab c hc (by omega)]
  · rwa [addEntry_full hroom, addEntry_full (by rwa [hnext])]

/-- After a table reset no learned entry is present (10_state.md R41). -/
theorem tableReset_sameDecode : sameDecode (tableReset s) (tableReset t) := by
  obtain ⟨-, hmincs, -, -, -, -, -, -, hclear, -⟩ := id h
  unfold tableReset
  rw [hmincs, hclear]
  exact setPrev_sameDecode (setCodesize_sameDecode (setTable_sameDecode h fun c hc hlt =>
    absurd hlt (not_learned_initially hc)) _) _

end

theorem emit_sameDecode {s t : State} (h : sameDecode s t) (str : List Byte) :
    sameDecode (emit str s) (emit str t) := by
  induction str generalizing s t with
  | nil => exact h
  | cons b str ih => exact ih (emitIndex_sameDecode h b)

section
variable {s t : State} (h : sameDecode s t)
include h

theorem presentCode_sameDecode (c : Code) (b : Byte) (str : List Byte) :
    sameDecode (presentCode c b str s) (presentCode c b str t) := by
  have hemit := emit_sameDecode (advance_sameDecode h) str
  unfold presentCode
  simp only [hemit.prevV_eq, hemit.prevCode_eq]
  split
  · exact setPrev_sameDecode (addEntry_sameDecode hemit _ b) _
  · exact setPrev_sameDecode hemit _

theorem selfReference_sameDecode (c : Code) (b : Byte) (str : List Byte) :
    sameDecode (selfReference c b str s) (selfReference c b str t) := by
  unfold selfReference
  rw [h.prevCode_eq]
  exact setPrev_sameDecode (emit_sameDecode (addEntry_sameDecode (advance_sameDecode h) _ b) _) _

theorem raiseFormatError_sameDecode (cause : BitVec 3) (c : Code) (pos : BitVec 35) :
    sameDecode (raiseFormatError cause c pos s) (raiseFormatError cause c pos t) :=
  setStatus_sameDecode (setRecord_sameDecode h c pos) _

theorem haltEnd_sameDecode : sameDecode (haltEnd s) (haltEnd t) := by
  obtain ⟨hocnt, hexpect⟩ := h.output_eq
  unfold haltEnd State.isShort
  rw [hocnt, hexpect]
  exact setStatus_sameDecode h _

end

/-! ## Runs -/

/-- Whatever a code answers in the one decode, it answers the like in the other. -/
theorem ExecNext.simulated {i : Instr} {s s' t : State} (h : ExecNext s i s') (hi : ¬ isCommand i)
    (hst : sameDecode s t) : ∃ t', ExecNext t i t' ∧ sameDecode s' t' := by
  have hadvance := advance_sameDecode hst
  cases h with
  | literal hi => exact ⟨_, .literal hi, presentCode_sameDecode hst _ _ _⟩
  | clearCode hi => exact ⟨_, .clearCode hi, tableReset_sameDecode hadvance⟩
  | endCode hi => exact ⟨_, .endCode hi, haltEnd_sameDecode hadvance⟩
  | reference hstr => exact ⟨_, .reference ((hst.str_eq _).trans hstr), presentCode_sameDecode hst _ _ _⟩
  | selfReference hprev hstr =>
    refine ⟨_, .selfReference (hst.prevV_eq.trans hprev) ?_, selfReference_sameDecode hst _ _ _⟩
    rw [hst.prevCode_eq, hst.str_eq, hstr]
  | noPrevious hprev =>
    refine ⟨_, .noPrevious (hst.prevV_eq.trans hprev), ?_⟩
    rw [hst.bitpos_eq]
    exact raiseFormatError_sameDecode hadvance 1 _ _
  | invalid =>
    refine ⟨_, .invalid, ?_⟩
    unfold invalidCode
    rw [hst.bitpos_eq]
    exact raiseFormatError_sameDecode hadvance 2 _ _
  | busyCommand hcommand => exact absurd hcommand hi
  | decode => exact absurd (.inl rfl) hi
  | deint => exact absurd (.inr (.inl rfl)) hi
  | clear => exact absurd (.inr (.inr rfl)) hi

theorem decodeStep_sameDecode {s s' t : State} (hst : sameDecode s t) (h : decodeStep s = .next s') :
    ∃ t', decodeStep t = .next t' ∧ sameDecode s' t' := by
  obtain ⟨hocnt, hexpect⟩ := hst.output_eq
  have hfetch := hst.fetch_eq
  unfold decodeStep
  rw [hocnt, hexpect, hfetch]
  obtain ⟨hcount, rfl⟩ | ⟨hroom, ⟨e, he⟩, rfl⟩ | ⟨hroom, i, hi, hexec⟩ := decodeStep_next h
  · exact ⟨haltCount t, by rw [if_pos hcount], setStatus_sameDecode hst _⟩
  · exact ⟨haltTrunc t, by rw [if_neg (Nat.not_le.2 hroom), he], setStatus_sameDecode hst _⟩
  · obtain ⟨-, c, hclass⟩ := fetch_ok hi
    obtain ⟨t', ht', hsame⟩ := (exec_next hexec).simulated hclass.not_command hst
    exact ⟨t', by rw [if_neg (Nat.not_le.2 hroom), hi]; exact ht'.exec_eq, hsame⟩

theorem engineStep_decoding {s : State} (hb : s.busy = true) (hopk : s.opk = false) : engineStep s = decodeStep s := by
  simp [engineStep, hb, hopk]

theorem engineStep_atRest {s : State} (hb : s.busy = false) : engineStep s = .next s := by
  simp [engineStep, hb]

theorem engineStep_sameDecode {s s' t : State} (hst : sameDecode s t) (hopk : s.opk = false)
    (h : engineStep s = .next s') : ∃ t', engineStep t = .next t' ∧ sameDecode s' t' := by
  cases hb : s.busy with
  | true =>
    rw [engineStep_decoding hb hopk] at h
    rw [engineStep_decoding (hst.busy_eq.trans hb) (hst.opk_eq.trans hopk)]
    exact decodeStep_sameDecode hst h
  | false =>
    rw [engineStep_atRest hb] at h
    cases h
    exact ⟨t, engineStep_atRest (hst.busy_eq.trans hb), hst⟩

@[simp] theorem tableReset_script (s : State) : (tableReset s).script = s.script := by simp [tableReset]

@[simp] theorem advance_script (s : State) : (advance s).script = s.script := rfl

@[simp] theorem presentCode_script (c : Code) (b : Byte) (str : List Byte) (s : State) :
    (presentCode c b str s).script = s.script := by
  obtain ⟨m, n, w, t, x, h⟩ := presentCode_writes c b str s
  simp [h]

@[simp] theorem selfReference_script (c : Code) (b : Byte) (str : List Byte) (s : State) :
    (selfReference c b str s).script = s.script := by
  obtain ⟨m, n, w, t, x, h⟩ := selfReference_writes c b str s
  simp [h]

/-- The states of a decode with no host move left (log entries 1, 9). -/
structure Undisturbed (s : State) : Prop where
  opk    : s.opk = false
  script : s.script = []

theorem haltEnd_opk (s : State) : (haltEnd s).opk = false := by
  change (endWord s.isShort).getLsbD 8 = false
  cases s.isShort <;> decide

theorem errorWord_opk (cause : BitVec 3) : (errorWord cause).getLsbD 8 = false := by
  revert cause
  decide

theorem CodeNext.undisturbed {s t : State} (h : CodeNext s t) (hs : Undisturbed s) : Undisturbed t := by
  obtain ⟨hopk, hscript⟩ := hs
  cases h with
  | present =>
    exact ⟨(congrArg (·.getLsbD 8) (presentCode_status ..)).trans hopk, (presentCode_script ..).trans hscript⟩
  | selfReference =>
    exact ⟨(congrArg (·.getLsbD 8) (selfReference_status ..)).trans hopk, (selfReference_script ..).trans hscript⟩
  | clearCode =>
    exact ⟨(congrArg (·.getLsbD 8) (tableReset_status (advance s))).trans hopk,
      (tableReset_script (advance s)).trans hscript⟩
  | endCode => exact ⟨haltEnd_opk _, hscript⟩
  | noPrevious | invalid => exact ⟨errorWord_opk _, hscript⟩

theorem engineStep_undisturbed {s t : State} (hs : Undisturbed s) (h : engineStep s = .next t) : Undisturbed t := by
  obtain ⟨-, hopk, -⟩ | ⟨-, -, hstep⟩ | ⟨-, rfl⟩ := engineStep_next h
  · exact absurd (hs.opk.symm.trans hopk) (by decide)
  · obtain ⟨-, rfl⟩ | ⟨-, -, rfl⟩ | ⟨-, i, hfetch, hexec⟩ := decodeStep_next hstep
    · exact ⟨by change countWord.getLsbD 8 = false; decide, hs.script⟩
    · exact ⟨by change truncWord.getLsbD 8 = false; decide, hs.script⟩
    · exact (codeNext_of_fetch hfetch hexec).undisturbed hs
  · exact hs

/-- With no host move left every step is the engine's. -/
theorem step_undisturbed {s : State} (h : s.script = []) : step s = engineStep s := step_engineTurn (.inl ⟨h, rfl⟩)

theorem runSteps_succ {k : Nat} {s s' : State} :
    runSteps (k + 1) s = some s' ↔ ∃ u, step s = .next u ∧ runSteps k u = some s' := by
  simp only [runSteps]
  cases step s <;> simp

/-- Settles O53: step by step along the run, the engine answers alike in two states that a decode cannot tell apart, and
what it answers stays a decode with no host move left. -/
theorem decodeRunsAreIsolated : Obligations.DecodeRunsAreIsolated := by
  intro k s t s' hst hopk hs ht hrun
  induction k generalizing s t with
  | zero =>
    cases hrun
    exact ⟨t, rfl, hst⟩
  | succ k ih =>
    obtain ⟨u, hstep, hrest⟩ := runSteps_succ.1 hrun
    rw [step_undisturbed hs] at hstep
    obtain ⟨v, hstep', huv⟩ := engineStep_sameDecode hst hopk hstep
    obtain ⟨hopk', hu⟩ := engineStep_undisturbed ⟨hopk, hs⟩ hstep
    obtain ⟨-, hv⟩ := engineStep_undisturbed ⟨hst.opk_eq.trans hopk, ht⟩ hstep'
    obtain ⟨t', hrun', hsame⟩ := ih u v huv hopk' hu hv hrest
    exact ⟨t', runSteps_succ.2 ⟨v, (step_undisturbed ht).trans hstep', hrun'⟩, hsame⟩

/-! ## How a decode starts -/

/-- The payload is what CONFIG.CHAIN makes of the input cells below ILEN (40_bit_cursor.md R111). -/
theorem payload_congr {s t : State} (hconfig : s.config = t.config) (hilen : s.ilen = t.ilen)
    (hcells : ∀ a, a < s.ilen.toNat → s.cell .ibuf a = t.cell .ibuf a) : t.payload = s.payload := by
  have hbytes : t.inputBytes = s.inputBytes := by
    unfold State.inputBytes
    rw [← hilen]
    exact List.map_congr_left fun a ha => (hcells a (List.mem_range.1 ha)).symm
  unfold State.payload State.chain
  rw [hbytes, hconfig]

/-- A DECODE with a legal MINCS and written operands, if it answers, has started (43_host_commands.md R184). -/
theorem execDecode_started {s s' : State} (hb : s.busy = false) (hwritten : s.written decodeOperands = true)
    (hmincs : 2 ≤ s.mincs.toNat) (hmincs' : s.mincs.toNat ≤ 8) (h : exec .decode s = .next s') :
    s' = decodeInit (beginCommand false { s with unspec := stillUnspec decodeOperands s.unspec }) := by
  obtain ⟨-, rfl⟩ := admitted_next hb h
  rw [settleDecode_written hwritten]
  simp [startDecode, State.mincsLegal, hmincs, hmincs']

@[simp] theorem setPrev_payload (p : BitVec 13) (s : State) : (setPrev p s).payload = s.payload := rfl
@[simp] theorem setCodesize_payload (w : BitVec 4) (s : State) : (setCodesize w s).payload = s.payload := rfl
@[simp] theorem setTable_payload (m : Table) (n : BitVec 13) (s : State) : (setTable m n s).payload = s.payload := rfl

@[simp] theorem decodeRegs_status (s : State) : (decodeRegs s).status = s.status := rfl
@[simp] theorem decodeRegs_mincs (s : State) : (decodeRegs s).mincs = s.mincs := rfl
@[simp] theorem decodeRegs_expect (s : State) : (decodeRegs s).expect = s.expect := rfl
@[simp] theorem decodeRegs_payload (s : State) : (decodeRegs s).payload = s.payload := rfl
@[simp] theorem decodeRegs_bitpos (s : State) : (decodeRegs s).bitpos = 0 := rfl
@[simp] theorem decodeRegs_ocnt (s : State) : (decodeRegs s).ocnt = 0 := rfl
@[simp] theorem decodeRegs_ecode (s : State) : (decodeRegs s).ecode = 0 := rfl
@[simp] theorem decodeRegs_epos (s : State) : (decodeRegs s).epos = 0 := rfl
@[simp] theorem decodeRegs_clearcode (s : State) :
    (decodeRegs s).clearcode = BitVec.ofNat 9 (2 ^ s.mincs.toNat) := rfl
@[simp] theorem decodeRegs_endcode (s : State) :
    (decodeRegs s).endcode = BitVec.ofNat 9 (2 ^ s.mincs.toNat + 1) := rfl

/-- Two initialised decodes with the same operands and payload cannot be told apart: no index is stored and no
learned entry is present (41_lzw_codes.md R125, 10_state.md R41). -/
theorem decodeInit_sameDecode {s t : State} (hstatus : t.status = s.status) (hmincs : t.mincs = s.mincs)
    (hexpect : t.expect = s.expect) (hpayload : t.payload = s.payload) : sameDecode (decodeInit s) (decodeInit t) := by
  simp [sameDecode, decodeInit, tableReset, hstatus, hmincs, hexpect, hpayload]
  omega

/-- Settles O52: DecodeInit writes every register a decode reads that is no operand, and leaves no learned entry present
and no index stored; the operands and the payload are the same by hypothesis. -/
theorem decodesStartAlike : Obligations.DecodesStartAlike := by
  intro s t s' t' hsb htb hsw htw hmincs hexpect hilen hconfig hcells hlow hhigh hs ht
  rw [execDecode_started hsb hsw hlow hhigh hs, execDecode_started htb htw (hmincs ▸ hlow) (hmincs ▸ hhigh) ht]
  exact decodeInit_sameDecode rfl hmincs.symm hexpect.symm (payload_congr hconfig hilen hcells)

end Sys2Proof.Machine
end

section
/-! PROOFS. Register writes by the host (43_host_commands.md R188) and the state after reset (10_state.md R48). -/

namespace Sys2Proof.Machine

/-! ## Host writes of a register -/

/-- CTRL reads 0 (10_state.md R21). -/
theorem readRegister_ctrl (s : State) : readRegister s 0 = 0 := rfl

theorem readRegister_absent {n : Nat} (h : 18 ≤ n) (s : State) : readRegister s n = 0 := by
  unfold readRegister
  split
  case h_18 => rfl
  all_goals exact absurd h (by decide)

/-- A value cut to a register's width reads as the number it is (43_host_commands.md R188). -/
theorem setWidth_ofNat_eq (w v : Nat) : (BitVec.ofNat w v).setWidth 35 = BitVec.ofNat 35 (v % 2 ^ w) := by
  apply BitVec.eq_of_toNat_eq
  simp

/-- What a register reads after the host wrote it (43_host_commands.md R188). -/
theorem readRegister_writeRegister_same (n v : Nat) (s : State) :
    readRegister (writeRegister n v s) n =
      (if n = 2 then BitVec.ofNat 35 (v % 2) else if n = 3 then BitVec.ofNat 35 (v % 2 ^ 8)
        else if n = 4 ∨ n = 5 ∨ n = 8 then BitVec.ofNat 35 (v % 2 ^ 32)
        else if n = 6 ∨ n = 7 then BitVec.ofNat 35 (v % 2 ^ 16) else readRegister s n) := by
  unfold writeRegister
  split
  case h_1 =>
    change (BitVec.ofNat 32 (v % 2)).setWidth 35 = BitVec.ofNat 35 (v % 2)
    rw [setWidth_ofNat_eq, Nat.mod_eq_of_lt (a := v % 2) (by omega)]
  case h_8 => grind
  all_goals
    simp only [readRegister]
    rw [view_of_stillUnspec rfl (List.mem_singleton_self _), setWidth_ofNat_eq]
    rfl

/-- A write of one register leaves what every other one reads: it takes no other name off the unspecified ones
(43_host_commands.md R188, 10_state.md R45). -/
theorem readRegister_writeRegister_other {n k : Nat} (h : k ≠ n) (v : Nat) (s : State) :
    readRegister (writeRegister n v s) k = readRegister s k := by
  unfold writeRegister
  split
  case h_8 => rfl
  all_goals
    unfold readRegister
    split <;> simp [State.view, mem_stillUnspec] at h ⊢

theorem writeRegister_cell (n v : Nat) (s : State) (sp : Space) (a : Nat) :
    (writeRegister n v s).cell sp a = s.cell sp a := by
  unfold writeRegister
  split <;> cases sp <;> rfl

theorem writeRegister_tab (n v : Nat) (s : State) : (writeRegister n v s).tab = s.tab := by
  unfold writeRegister
  split <;> rfl

/-- At rest a write of a register other than CTRL is taken (43_host_commands.md R188). -/
theorem hostAct_writeReg {s : State} {n : Nat} (hb : s.busy = false) (hn : n ≠ 0) (v : Nat) :
    hostAct (.writeReg n v) s = .next (writeRegister n v s) := by
  simp [hostAct, hostWriteReg, hb, hn]

/-- Settles O35: the written register by its width, every other register by name, the memories untouched. -/
theorem hostWritesRegister : Obligations.HostWritesRegister := fun s n v hb hn =>
  ⟨readRegister_ctrl s, fun habsent => readRegister_absent habsent s, writeRegister n v s, hostAct_writeReg hb hn v,
    readRegister_writeRegister_same n v s, fun _ hk => readRegister_writeRegister_other hk v s,
    writeRegister_cell n v s, writeRegister_tab n v s⟩

/-! ## The state after reset -/

/-- Settles O39: every register and memory of the reset state is written out in `State.reset`. -/
theorem resetState : Obligations.ResetState :=
  ⟨rfl, rfl, rfl, rfl, fun r => by cases r <;> decide, rfl, rfl, rfl, rfl, rfl⟩

theorem reset_safe : Safe State.reset :=
  safe_atRest (leaveHalt_busy State.reset) ⟨rfl, rfl, rfl, nofun⟩ (by decide)

/-- Settles O41: the memories are empty, STATUS and CONFIG are 0, and the block is at rest. -/
theorem invariantAtReset : Obligations.InvariantAtReset :=
  inv_iff.2 ⟨⟨rfl, rfl, rfl, rfl⟩, statusInv_statusWords (by simp [statusWords, State.reset]), reset_safe⟩

end Sys2Proof.Machine
end

section
/-! PROOFS. The bits of a fetched value (20_memory.md R61, R62), and stripping as the inverse of framing (R68,
40_bit_cursor.md R111). -/

namespace Sys2Proof.Machine

/-! ## Fetched bits -/

theorem fetchValue_lt (p : List Byte) (b w : Nat) : fetchValue p b w < 2 ^ w := by
  induction w generalizing b with
  | zero => exact Nat.one_pos
  | succ w ih =>
    have hbit := Bool.toNat_lt (payloadBit p b)
    have htail := ih (b + 1)
    rw [fetchValue, Nat.pow_succ]
    omega

/-- The first bit read is bit 0, the i-th one bit i (20_memory.md R62). -/
theorem fetchValue_testBit (p : List Byte) (b w : Nat) {i : Nat} (hi : i < w) :
    (fetchValue p b w).testBit i = payloadBit p (b + i) := by
  induction w generalizing b i with
  | zero => omega
  | succ w ih =>
    rw [fetchValue]
    cases i with
    | zero =>
      rw [Nat.add_zero, Nat.testBit_zero, Nat.add_mul_mod_self_left]
      cases payloadBit p b <;> rfl
    | succ i =>
      have hhalf : ((payloadBit p b).toNat + 2 * fetchValue p (b + 1) w) / 2 = fetchValue p (b + 1) w := by
        have := Bool.toNat_lt (payloadBit p b)
        omega
      rw [Nat.testBit_succ, hhalf, ih (b + 1) (Nat.lt_of_succ_lt_succ hi), Nat.add_right_comm, Nat.add_assoc]

/-- Settles O1: both parts by induction on the width, one bit put below the rest at each step. -/
theorem fetchedBitIsPayloadBit : Obligations.FetchedBitIsPayloadBit :=
  fun p b w => ⟨fetchValue_lt p b w, fun _ hi => fetchValue_testBit p b w hi⟩

/-! ## Framing and stripping -/

/-- Where every length byte is the length of its sub-block (20_memory.md R68), a sub-block contributes its data. -/
theorem stripChain_block {n : Byte} {b : List Byte} (hn : n.toNat = b.length) (hb : 1 ≤ b.length) (fuel : Nat)
    (rest : List Byte) : stripChain (fuel + 1) (n :: (b ++ rest)) = b ++ stripChain fuel rest := by
  have hpos : b.length ≠ 0 := Nat.ne_of_gt hb
  rw [stripChain, hn, if_neg hpos, List.take_left, List.drop_left]

theorem stripChain_terminator (fuel : Nat) (rest : List Byte) : stripChain (fuel + 1) (0#8 :: rest) = [] := rfl

theorem legalCut_cons {b : List Byte} {bs : List (List Byte)} :
    legalCut (b :: bs) = true ↔ (1 ≤ b.length ∧ b.length ≤ 255) ∧ legalCut bs = true := by
  simp [legalCut]

theorem stripChain_frameCut {bs : List (List Byte)} (hbs : legalCut bs = true) (junk : List Byte) {fuel : Nat}
    (hfuel : (frameCut bs).length ≤ fuel) : stripChain fuel (frameCut bs ++ junk) = bs.flatten := by
  induction bs generalizing fuel with
  | nil =>
    obtain ⟨f, rfl⟩ := Nat.exists_eq_add_of_le' hfuel
    exact stripChain_terminator f junk
  | cons b bs ih =>
    obtain ⟨⟨hlow, hhigh⟩, hrest⟩ := legalCut_cons.1 hbs
    have hn : (BitVec.ofNat 8 b.length).toNat = b.length := Nat.mod_eq_of_lt (by omega)
    simp only [frameCut, List.length_cons, List.length_append] at hfuel
    obtain ⟨f, rfl⟩ := Nat.exists_eq_add_of_le' (Nat.le_of_add_left_le hfuel)
    rw [frameCut, List.cons_append, List.append_assoc, stripChain_block hn hlow, ih hrest (by omega),
      List.flatten_cons]

theorem legalCut_frameBlocks (fuel : Nat) (p : List Byte) : legalCut (frameBlocks fuel p) = true := by
  induction fuel generalizing p with
  | zero => rfl
  | succ fuel ih =>
    cases p with
    | nil => rfl
    | cons b p => exact legalCut_cons.2 ⟨by simp only [List.length_take, List.length_cons]; omega, ih _⟩

theorem flatten_frameBlocks {fuel : Nat} {p : List Byte} (hfuel : p.length ≤ fuel) :
    (frameBlocks fuel p).flatten = p := by
  induction fuel generalizing p with
  | zero => exact (List.length_eq_zero_iff.1 (Nat.le_zero.1 hfuel)).symm
  | succ fuel ih =>
    cases p with
    | nil => rfl
    | cons b p =>
      have hrest : ((b :: p).drop 255).length ≤ fuel := by
        simp only [List.length_drop, List.length_cons] at hfuel ⊢
        omega
      rw [frameBlocks, List.flatten_cons, ih hrest, List.take_append_drop]

/-- Settles O4: stripping takes the sub-blocks off one by one and stops at the zero byte; the assembler takes 1 to 255
bytes at a time until none are left. -/
theorem framedPayloadIsRecovered : Obligations.FramedPayloadIsRecovered := by
  refine ⟨fun s bs junk hchain hbs hinput => ?_, fun p => ⟨legalCut_frameBlocks _ p, flatten_frameBlocks le_rfl⟩⟩
  rw [State.payload, if_pos hchain, hinput]
  exact stripChain_frameCut hbs junk (by rw [List.length_append]; omega)

end Sys2Proof.Machine
end

section
/-! PROOFS. The host at rest (43_host_commands.md R188): buffer accesses and register reads (20_memory.md R60, R66), and
which reads of results wait for BUSY = 0 to have been read (70_reset_and_hazards.md R241). -/

namespace Sys2Proof.Machine

/-! ## A draw -/

/-- A read that the busy handshake leaves unspecified returns some value of the width read (10_state.md R45). -/
theorem unsyncedDraw_eq (w : Nat) (s : State) : ∃ v : BitVec 35, v.toNat < 2 ^ w ∧
    unsyncedDraw w s = { s with lastRead := some v, draws := s.draws + 1 } :=
  ⟨_, cut_lt w (Config.unsyncedRead s.draws), rfl⟩

/-! ## Buffer accesses -/

theorem resultSpace_eq_true {sp : Space} : resultSpace sp = true ↔ sp ≠ .ibuf := by
  cases sp <;> decide

theorem hostReadBuf_readable {s : State} {sp : Space} {a : Nat} (hb : s.busy = false) (ha : a < s.capacity sp)
    (hread : sp = .ibuf ∨ s.synced = true) :
    hostReadBuf sp a s = .next (setLastRead ((s.cell sp a).setWidth 35) s) := by
  have hresult : (resultSpace sp && !s.synced) = false := by
    obtain rfl | hsynced := hread
    · rfl
    · simp [hsynced]
  simp [hostReadBuf, hb, ha, hresult]

theorem hostReadBuf_unsynced {s : State} {sp : Space} {a : Nat} (hb : s.busy = false) (ha : a < s.capacity sp)
    (hsp : sp ≠ .ibuf) (hsynced : s.synced = false) : hostReadBuf sp a s = .next (unsyncedDraw 8 s) := by
  simp [hostReadBuf, hb, ha, resultSpace_eq_true.2 hsp, hsynced]

theorem hostReadBuf_refused {s : State} {sp : Space} {a : Nat} (hb : s.busy = false) (ha : s.capacity sp ≤ a) :
    hostReadBuf sp a s = .refused .bufferBeyondCapacity := by
  simp [hostReadBuf, hb, Nat.not_lt.2 ha]

theorem hostWriteBuf_taken {s : State} {sp : Space} {a : Nat} (hb : s.busy = false) (ha : a < s.capacity sp)
    (v : Nat) : hostWriteBuf sp a v s = .next (writeBuffer sp a v s) := by
  simp [hostWriteBuf, hb, ha]

theorem hostWriteBuf_refused {s : State} {sp : Space} {a : Nat} (hb : s.busy = false) (ha : s.capacity sp ≤ a)
    (v : Nat) : hostWriteBuf sp a v s = .refused .bufferBeyondCapacity := by
  simp [hostWriteBuf, hb, Nat.not_lt.2 ha]

theorem writeBuffer_cell_same {sp : Space} (hsp : sp ≠ .dbuf) (a v : Nat) (s : State) :
    (writeBuffer sp a v s).cell sp a = BitVec.ofNat 8 v := by
  cases sp with
  | ibuf | obuf => simp [cell_eq, writeBuffer, State.buf]
  | dbuf => exact absurd rfl hsp

theorem writeBuffer_dbuf (a v : Nat) (s : State) : writeBuffer .dbuf a v s = s := rfl

theorem writeBuffer_spaceEpoch (sp : Space) (a v : Nat) (s : State) (sp' : Space) :
    (writeBuffer sp a v s).spaceEpoch sp' = s.spaceEpoch sp' := by
  cases sp <;> cases sp' <;> rfl

theorem writeBuffer_buf_other {sp sp' : Space} (h : sp' ≠ sp) (a v : Nat) (s : State) :
    (writeBuffer sp a v s).buf sp' = s.buf sp' := by
  cases sp with
  | ibuf =>
    cases sp' with
    | ibuf => exact absurd rfl h
    | obuf | dbuf => rfl
  | obuf =>
    cases sp' with
    | obuf => exact absurd rfl h
    | ibuf | dbuf => rfl
  | dbuf => rfl

theorem writeBuffer_cell_other {sp sp' : Space} {a a' : Nat} (h : ¬(sp' = sp ∧ a' = a)) (v : Nat) (s : State) :
    (writeBuffer sp a v s).cell sp' a' = s.cell sp' a' := by
  rw [cell_eq, cell_eq, writeBuffer_spaceEpoch]
  by_cases hsp : sp' = sp
  · subst hsp
    have ha : a' ≠ a := fun ha => h ⟨rfl, ha⟩
    cases sp' with
    | ibuf | obuf => simp only [writeBuffer, State.buf, Store.read_write_other ha]
    | dbuf => rfl
  · rw [writeBuffer_buf_other hsp]

theorem readRegister_writeBuffer (sp : Space) (a v : Nat) (s : State) (n : Nat) :
    readRegister (writeBuffer sp a v s) n = readRegister s n := by
  cases sp <;> rfl

theorem writeBuffer_tab (sp : Space) (a v : Nat) (s : State) : (writeBuffer sp a v s).tab = s.tab := by
  cases sp <;> rfl

/-- Settles O36: below the capacity a read is readable or a draw and a write is `writeBuffer`; from there on both are
refused. -/
theorem hostBufferAccess : Obligations.HostBufferAccess := by
  intro s sp a v hb
  refine ⟨fun ha => ⟨hostReadBuf_readable hb ha, fun hsp hsynced => ?_, writeBuffer sp a v s,
      hostWriteBuf_taken hb ha v, fun hsp => writeBuffer_cell_same hsp a v s, ?_,
      fun _ _ hother => writeBuffer_cell_other hother v s, readRegister_writeBuffer sp a v s,
      writeBuffer_tab sp a v s⟩,
    fun ha => ⟨hostReadBuf_refused hb ha, hostWriteBuf_refused hb ha v⟩⟩
  · obtain ⟨u, hu, hdraw⟩ := unsyncedDraw_eq 8 s
    exact ⟨u, hu, (hostReadBuf_unsynced hb ha hsp hsynced).trans (congrArg _ hdraw)⟩
  · rintro rfl
    exact writeBuffer_dbuf a v s

/-! ## Register reads -/

theorem resultRegister_eq_true {n : Nat} : resultRegister n = true ↔ 8 ≤ n ∧ n ≤ 17 := by
  simp [resultRegister]

theorem hostReadReg_readable {s : State} {n : Nat} (hb : s.busy = false) (hn : n ≠ 1)
    (hread : n < 8 ∨ 17 < n ∨ s.synced = true) : hostReadReg n s = setLastRead (readRegister s n) s := by
  have hresult : (resultRegister n && !s.synced) = false := by
    rw [Bool.and_eq_false_imp, resultRegister_eq_true]
    rintro ⟨hlow, hhigh⟩
    obtain hlt | hgt | hsynced := hread
    · omega
    · omega
    · simp [hsynced]
  simp [hostReadReg, hn, hb, hresult]

theorem hostReadReg_unsynced {s : State} {n : Nat} (hlow : 8 ≤ n) (hhigh : n ≤ 17) (hsynced : s.synced = false) :
    hostReadReg n s = unsyncedDraw (registerWidth n) s := by
  have hn : n ≠ 1 := by omega
  simp [hostReadReg, hn, resultRegister_eq_true.2 ⟨hlow, hhigh⟩, hsynced]

/-- At rest a read of STATUS makes the results readable (20_memory.md R71 b). -/
theorem readStatus_atRest {s : State} (hb : s.busy = false) :
    readStatus s = { s with lastRead := some (s.status.setWidth 35), synced := true } := by
  simp [readStatus, hb, setSynced, setLastRead, readRegister]

theorem toNat_setWidth_lt {w : Nat} (m : Nat) (v : BitVec w) : (v.setWidth m).toNat < 2 ^ w := by
  rw [BitVec.toNat_setWidth]
  exact Nat.lt_of_le_of_lt (Nat.mod_le _ _) v.isLt

/-- A register's value fits its width (10_state.md R21). -/
theorem readRegister_lt (s : State) (n : Nat) : (readRegister s n).toNat < 2 ^ registerWidth n := by
  unfold readRegister
  split
  case h_10 | h_17 => exact BitVec.isLt _
  case h_18 => exact Nat.two_pow_pos _
  all_goals exact toNat_setWidth_lt 35 _

/-- Settles O37: a read of STATUS, a readable read, a draw, and the width of every register by its number. -/
theorem hostReadsChangeNothing : Obligations.HostReadsChangeNothing := by
  intro s n hb
  refine ⟨fun hn hread => congrArg _ (hostReadReg_readable hb hn hread), fun hlow hhigh hsynced => ?_,
    congrArg _ (readStatus_atRest hb), readRegister_lt s n⟩
  obtain ⟨v, hv, hdraw⟩ := unsyncedDraw_eq (registerWidth n) s
  exact ⟨v, hv, congrArg _ ((hostReadReg_unsynced hlow hhigh hsynced).trans hdraw)⟩

end Sys2Proof.Machine
end

section
/-! PROOFS. When the results become readable (20_memory.md R71 b), and what the engine never writes (20_memory.md R60,
R74). -/

namespace Sys2Proof.Machine

/-! ## The record that BUSY = 0 has been read (log entry 32) -/

@[simp] theorem advance_synced (s : State) : (advance s).synced = s.synced := rfl
@[simp] theorem tableReset_synced (s : State) : (tableReset s).synced = s.synced := rfl
@[simp] theorem beginCommand_synced (opk : Bool) (s : State) : (beginCommand opk s).synced = false := rfl

@[simp] theorem presentCode_synced (c : Code) (b : Byte) (str : List Byte) (s : State) :
    (presentCode c b str s).synced = s.synced := by
  obtain ⟨m, n, w, t, x, h⟩ := presentCode_writes c b str s
  simp [h]

@[simp] theorem selfReference_synced (c : Code) (b : Byte) (str : List Byte) (s : State) :
    (selfReference c b str s).synced = s.synced := by
  obtain ⟨m, n, w, t, x, h⟩ := selfReference_writes c b str s
  simp [h]

@[simp] theorem deinterlace_synced (s : State) : (deinterlace s).synced = s.synced := by
  unfold deinterlace
  split <;> rfl

/-- An accepted DECODE makes the results unreadable, a halt at once on an illegal MINCS included. -/
@[simp] theorem startDecode_synced (s : State) : (startDecode s).synced = false := by
  unfold startDecode
  split <;> rfl

@[simp] theorem startDeint_synced (s : State) : (startDeint s).synced = false := by simp [startDeint]

@[simp] theorem writeRegister_synced (n v : Nat) (s : State) : (writeRegister n v s).synced = s.synced := by
  unfold writeRegister
  split <;> rfl

@[simp] theorem writeBuffer_synced (sp : Space) (a v : Nat) (s : State) :
    (writeBuffer sp a v s).synced = s.synced := by
  cases sp <;> rfl

theorem ExecNext.synced_eq {i : Instr} {s t : State} (h : ExecNext s i t) :
    t.synced = if (i = .decode ∨ i = .deint) ∧ s.busy = false then false else s.synced := by
  cases h with
  | literal hi =>
    rw [if_neg (by rintro ⟨rfl | rfl, -⟩ <;> cases hi)]
    exact presentCode_synced ..
  | clearCode hi =>
    rw [if_neg (by rintro ⟨rfl | rfl, -⟩ <;> cases hi)]
    exact tableReset_synced (advance s)
  | endCode hi =>
    rw [if_neg (by rintro ⟨rfl | rfl, -⟩ <;> cases hi)]
    rfl
  | reference | selfReference => simp
  | noPrevious | invalid | clear => rfl
  | busyCommand hi hb => simp [hb]
  | decode hb | deint hb => simp [hb]

/-- No code and no halt makes the results readable or unreadable: the engine's step executes no command. -/
theorem engineStep_synced {s t : State} (h : engineStep s = .next t) : t.synced = s.synced := by
  obtain ⟨-, -, rfl⟩ | ⟨-, -, hstep⟩ | ⟨-, rfl⟩ := engineStep_next h
  · exact deinterlace_synced s
  · obtain ⟨-, rfl⟩ | ⟨-, -, rfl⟩ | ⟨-, i, hfetch, hexec⟩ := decodeStep_next hstep
    · rfl
    · rfl
    · obtain ⟨-, c, hclass⟩ := fetch_ok hfetch
      have hcode : ¬(i = .decode ∨ i = .deint) := fun hi => hclass.not_command (hi.imp_right .inl)
      rw [(exec_next hexec).synced_eq, if_neg fun hi => hcode hi.1]
  · rfl

theorem hostWriteReg_synced (n v : Nat) (s : State) : (hostWriteReg n v s).synced = s.synced := by
  unfold hostWriteReg
  split
  · rfl
  · exact writeRegister_synced n v s

theorem hostWriteBuf_synced {sp : Space} {a v : Nat} {s t : State} (h : hostWriteBuf sp a v s = .next t) :
    t.synced = s.synced := by
  unfold hostWriteBuf at h
  split_ifs at h <;> cases h
  · rfl
  · exact writeBuffer_synced sp a v s

/-- Settles O38: by what an instruction, an engine step and a host write can answer. -/
theorem resultsAwaitAStatusRead : Obligations.ResultsAwaitAStatusRead := by
  refine ⟨fun i s t h => (exec_next h).synced_eq, fun s t h => engineStep_synced h, fun s t n v hn h => ?_,
    fun s t sp a v h => hostWriteBuf_synced h⟩
  simp only [hostAct, if_neg hn] at h
  cases h
  exact hostWriteReg_synced n v s

/-! ## The engine's input -/

/-- IBUF with the index of its free bytes, CONFIG and the operand registers are the same (20_memory.md R60, R74). -/
structure KeepsInput (s t : State) : Prop where
  ibuf   : t.ibuf = s.ibuf
  epoch  : t.epoch = s.epoch
  config : t.config = s.config
  mincs  : t.mincs = s.mincs
  expect : t.expect = s.expect
  ilen   : t.ilen = s.ilen
  width  : t.width = s.width
  height : t.height = s.height

theorem KeepsInput.cell {s t : State} (h : KeepsInput s t) (a : Nat) : t.cell .ibuf a = s.cell .ibuf a := by
  simp only [cell_eq, State.buf, State.spaceEpoch, h.ibuf, h.epoch]

theorem KeepsInput.payload {s t : State} (h : KeepsInput s t) : t.payload = s.payload :=
  payload_congr h.config.symm h.ilen.symm fun a _ => (h.cell a).symm

theorem KeepsInput.refl (s : State) : KeepsInput s s := ⟨rfl, rfl, rfl, rfl, rfl, rfl, rfl, rfl⟩

theorem presentCode_keepsInput (c : Code) (b : Byte) (str : List Byte) (s : State) :
    KeepsInput s (presentCode c b str s) := by
  obtain ⟨m, n, w, t, x, h⟩ := presentCode_writes c b str s
  constructor <;> simp [h, advance]

theorem selfReference_keepsInput (c : Code) (b : Byte) (str : List Byte) (s : State) :
    KeepsInput s (selfReference c b str s) := by
  obtain ⟨m, n, w, t, x, h⟩ := selfReference_writes c b str s
  constructor <;> simp [h, advance]

theorem deinterlace_keepsInput (s : State) : KeepsInput s (deinterlace s) := by
  unfold deinterlace
  split <;> exact ⟨rfl, rfl, rfl, rfl, rfl, rfl, rfl, rfl⟩

theorem CodeNext.keepsInput {s t : State} (h : CodeNext s t) : KeepsInput s t := by
  cases h with
  | present => exact presentCode_keepsInput ..
  | selfReference => exact selfReference_keepsInput ..
  | clearCode | endCode | noPrevious | invalid => exact ⟨rfl, rfl, rfl, rfl, rfl, rfl, rfl, rfl⟩

theorem engineStep_keepsInput {s t : State} (h : engineStep s = .next t) : KeepsInput s t := by
  obtain ⟨-, -, rfl⟩ | ⟨-, -, hstep⟩ | ⟨-, rfl⟩ := engineStep_next h
  · exact deinterlace_keepsInput s
  · obtain ⟨-, rfl⟩ | ⟨-, -, rfl⟩ | ⟨-, i, hfetch, hexec⟩ := decodeStep_next hstep
    · exact ⟨rfl, rfl, rfl, rfl, rfl, rfl, rfl, rfl⟩
    · exact ⟨rfl, rfl, rfl, rfl, rfl, rfl, rfl, rfl⟩
    · exact (codeNext_of_fetch hfetch hexec).keepsInput
  · exact .refl _

/-- Settles O48: a de-interleaving, a halt, a code and a step at rest each keep the input, and the payload is made of the
input alone. -/
theorem engineNeverWritesItsInput : Obligations.EngineNeverWritesItsInput := by
  intro s t h
  have hkeep := engineStep_keepsInput h
  exact ⟨hkeep.cell, hkeep.config, hkeep.mincs, hkeep.expect, hkeep.ilen, hkeep.width, hkeep.height, hkeep.payload⟩

end Sys2Proof.Machine
end

section
/-! PROOFS. The decoder and the encoder of code words (30_encoding.md R90 to R99): the class of a fetched value, the code
value of an instruction, the packing of bits to bytes, and the command values. -/

namespace Sys2Proof.Machine

/-! ## The class of a fetched value -/

theorem ordered_iff {x : CodeContext} : x.ordered = true ↔
    x.endcode.toNat = x.clearcode.toNat + 1 ∧ x.clearcode.toNat + 2 ≤ x.next.toNat := by
  simp [CodeContext.ordered]

/-- What holds where the exact rows of one MINCS apply (30_encoding.md R95). -/
theorem exactRow_spec {x : CodeContext} {m : Nat} (h : x.exactRow = m) (hm : m ≠ 0) :
    (2 ≤ m ∧ m ≤ 8) ∧ x.clearcode.toNat = 2 ^ m ∧ x.endcode.toNat = 2 ^ m + 1 := by
  unfold CodeContext.exactRow at h
  split at h
  · next hrow =>
    obtain ⟨hlow, hhigh, hclear, hend⟩ := hrow
    subst h
    exact ⟨⟨hlow, hhigh⟩, hclear, hclear ▸ hend⟩
  · exact absurd h.symm hm

section
variable {x : CodeContext} {c : Code}

theorem decodeCode_literal (hc : c.toNat < x.clearcode.toNat) : decodeCode x c = decodeLit x c := if_pos hc

theorem decodeCode_clearcode (hc : c.toNat = x.clearcode.toNat) : decodeCode x c = decodeClr x := by
  rw [decodeCode, if_neg (by omega), if_pos hc]

variable (hx : x.ordered = true)
include hx

theorem decodeCode_endcode (hc : c.toNat = x.endcode.toNat) : decodeCode x c = decodeEoi x := by
  obtain ⟨hend, -⟩ := ordered_iff.1 hx
  rw [decodeCode, if_neg (by omega), if_neg (by omega), if_pos hc]

theorem decodeCode_reference (hlow : x.clearcode.toNat + 2 ≤ c.toNat) (hhigh : c.toNat < x.next.toNat) :
    decodeCode x c = .ref c := by
  obtain ⟨hend, -⟩ := ordered_iff.1 hx
  rw [decodeCode, if_neg (by omega), if_neg (by omega), if_neg (by omega), if_pos hhigh]

theorem decodeCode_selfReference (hc : c.toNat = x.next.toNat) : decodeCode x c = .kwk c := by
  obtain ⟨hend, hnext⟩ := ordered_iff.1 hx
  rw [decodeCode, if_neg (by omega), if_neg (by omega), if_neg (by omega), if_neg (by omega), if_pos hc]

theorem decodeCode_invalid (hc : x.next.toNat < c.toNat) : decodeCode x c = .inv c := by
  obtain ⟨hend, hnext⟩ := ordered_iff.1 hx
  rw [decodeCode, if_neg (by omega), if_neg (by omega), if_neg (by omega), if_neg (by omega), if_neg (by omega)]

end

/-- A literal keeps its index in the operand of its row, which is MINCS bits wide (30_encoding.md R95). -/
theorem literalOf_decodeLit_eq {x : CodeContext} {c : Code} (hc : c.toNat < x.clearcode.toNat) :
    literalOf (decodeLit x c) = some c := by
  have hkept : ∀ m, x.exactRow = m → m ≠ 0 → (c.setWidth m).setWidth 12 = c := by
    intro m hrow hm
    obtain ⟨-, hclear, -⟩ := exactRow_spec hrow hm
    apply BitVec.eq_of_toNat_eq
    rw [BitVec.toNat_setWidth, BitVec.toNat_setWidth, Nat.mod_eq_of_lt (b := 2 ^ m) (hclear ▸ hc),
      Nat.mod_eq_of_lt c.isLt]
  unfold decodeLit
  split
  case h_8 => rfl
  all_goals exact congrArg some (hkept _ ‹_› (by decide))

/-- Settles O6: the tests are made in the order of 30_encoding.md R93, and the bounds are ordered. -/
theorem classOfFetchedValue : Obligations.ClassOfFetchedValue := fun x _ hx =>
  ⟨fun hc => (congrArg literalOf (decodeCode_literal hc)).trans (literalOf_decodeLit_eq hc),
   fun hc => (congrArg isClear (decodeCode_clearcode hc)).trans (isClear_decodeClr x),
   fun hc => (congrArg isEnd (decodeCode_endcode hx hc)).trans (isEnd_decodeEoi x),
   decodeCode_reference hx, decodeCode_selfReference hx, decodeCode_invalid hx⟩

/-- Every value is of one of the six classes (30_encoding.md R93). -/
theorem fetchedValue_cases {x : CodeContext} (hx : x.ordered = true) (c : Code) :
    c.toNat < x.clearcode.toNat ∨ c.toNat = x.clearcode.toNat ∨ c.toNat = x.endcode.toNat
    ∨ (x.clearcode.toNat + 2 ≤ c.toNat ∧ c.toNat < x.next.toNat) ∨ c.toNat = x.next.toNat
    ∨ x.next.toNat < c.toNat := by
  obtain ⟨hend, hnext⟩ := ordered_iff.1 hx
  omega

/-- A value below NEXT is a literal, the clear code, the end code or a reference (30_encoding.md R93). -/
theorem decodeCode_below_next {x : CodeContext} {c : Code} (hx : x.ordered = true) (hc : c.toNat < x.next.toNat) :
    literalOf (decodeCode x c) = some c ∨ isClear (decodeCode x c) = true ∨ isEnd (decodeCode x c) = true
    ∨ decodeCode x c = .ref c := by
  obtain ⟨hliteral, hclear, hend, href, -, -⟩ := classOfFetchedValue x c hx
  obtain h | h | h | ⟨hlow, -⟩ | h | h := fetchedValue_cases hx c
  · exact .inl (hliteral h)
  · exact .inr (.inl (hclear h))
  · exact .inr (.inr (.inl (hend h)))
  · exact .inr (.inr (.inr (href hlow hc)))
  · exact absurd h (Nat.ne_of_lt hc)
  · exact absurd h (Nat.lt_asymm hc)

/-- Settles O7: every 12-bit value is below a NEXT of 4096. -/
theorem fullTableNeverInvalid : Obligations.FullTableNeverInvalid := by
  intro x c d hx hfull
  have hclass := decodeCode_below_next (c := c) hx (hfull ▸ c.isLt)
  constructor <;> intro h <;> simp [h, literalOf, isClear, isEnd] at hclass

/-! ## The code value of an instruction -/

/-- CLEARCODE and ENDCODE are 9 bits wide, a code value 12 (10_state.md R37, 30_encoding.md R92). -/
theorem toNat_boundAsCode (v : BitVec 9) : (v.setWidth 12 : Code).toNat = v.toNat :=
  BitVec.toNat_setWidth_of_le (by decide)

/-- The code value of a literal is its index, in every row (30_encoding.md R92, R95). -/
theorem encodeCode_literal {i : Instr} {c : Code} (hi : literalOf i = some c) (x : CodeContext) :
    encodeCode x i = some c := by
  cases i with
  | lit | litM2 | litM3 | litM4 | litM5 | litM6 | litM7 | litM8 => exact hi
  | _ => cases hi

section
variable {x : CodeContext} {i : Instr} (hin : i.inClass x = true)
include hin

/-- A literal of the row that applies is below CLEARCODE, and its index decodes to it (30_encoding.md R93, R95). -/
theorem literal_inClass {c : Code} (hi : literalOf i = some c) :
    c.toNat < x.clearcode.toNat ∧ decodeLit x c = i := by
  cases i with
  | lit =>
    cases hi
    obtain ⟨hrow, hlt⟩ := Bool.and_eq_true_iff.1 hin
    exact ⟨of_decide_eq_true hlt, by simp [decodeLit, eq_of_beq hrow]⟩
  | litM2 k | litM3 k | litM4 k | litM5 k | litM6 k | litM7 k | litM8 k =>
    cases hi
    have hrow := eq_of_beq hin
    obtain ⟨-, hclear, -⟩ := exactRow_spec hrow (by decide)
    refine ⟨?_, ?_⟩
    · rw [BitVec.toNat_setWidth_of_le (by decide), hclear]
      exact k.isLt
    · simp [decodeLit, hrow]
  | _ => cases hi

/-- The clear code of the row that applies has the value CLEARCODE, and CLEARCODE decodes to it. -/
theorem clear_inClass (hi : isClear i = true) :
    encodeCode x i = some (x.clearcode.setWidth 12) ∧ decodeClr x = i := by
  cases i with
  | clr => exact ⟨rfl, by simp [decodeClr, eq_of_beq hin]⟩
  | clrM2 | clrM3 | clrM4 | clrM5 | clrM6 | clrM7 | clrM8 =>
    have hrow := eq_of_beq hin
    obtain ⟨-, hclear, -⟩ := exactRow_spec hrow (by decide)
    refine ⟨congrArg some (BitVec.eq_of_toNat_eq ?_), by simp [decodeClr, hrow]⟩
    rw [toNat_boundAsCode, hclear]
    rfl
  | _ => cases hi

/-- The end code of the row that applies has the value ENDCODE, and ENDCODE decodes to it. -/
theorem end_inClass (hi : isEnd i = true) :
    encodeCode x i = some (x.endcode.setWidth 12) ∧ decodeEoi x = i := by
  cases i with
  | eoi => exact ⟨rfl, by simp [decodeEoi, eq_of_beq hin]⟩
  | eoiM2 | eoiM3 | eoiM4 | eoiM5 | eoiM6 | eoiM7 | eoiM8 =>
    have hrow := eq_of_beq hin
    obtain ⟨-, -, hend⟩ := exactRow_spec hrow (by decide)
    refine ⟨congrArg some (BitVec.eq_of_toNat_eq ?_), by simp [decodeEoi, hrow]⟩
    rw [toNat_boundAsCode, hend]
    rfl
  | _ => cases hi

end

theorem exactRow_cases (x : CodeContext) : x.exactRow = 0 ∨ x.exactRow = 2 ∨ x.exactRow = 3 ∨ x.exactRow = 4
    ∨ x.exactRow = 5 ∨ x.exactRow = 6 ∨ x.exactRow = 7 ∨ x.exactRow = 8 := by
  obtain hzero | hrow := eq_or_ne x.exactRow 0
  · exact .inl hzero
  · obtain ⟨⟨hlow, hhigh⟩, -⟩ := exactRow_spec rfl hrow
    omega

theorem decodeClr_inClass (x : CodeContext) : (decodeClr x).inClass x = true := by
  obtain h | h | h | h | h | h | h | h := exactRow_cases x <;> simp [decodeClr, Instr.inClass, h]

theorem decodeEoi_inClass (x : CodeContext) : (decodeEoi x).inClass x = true := by
  obtain h | h | h | h | h | h | h | h := exactRow_cases x <;> simp [decodeEoi, Instr.inClass, h]

/-- Settles O9: class by class; in every row the code value is the fetched value, CLEARCODE or ENDCODE. -/
theorem encodeOfDecodeIsIdentity : Obligations.EncodeOfDecodeIsIdentity := by
  intro x c hx
  obtain hc | hc | hc | ⟨hlow, hhigh⟩ | hc | hc := fetchedValue_cases hx c
  · rw [decodeCode_literal hc, encodeCode_literal (literalOf_decodeLit_eq hc)]
  · rw [decodeCode_clearcode hc, (clear_inClass (decodeClr_inClass x) (isClear_decodeClr x)).1]
    exact congrArg some (BitVec.eq_of_toNat_eq ((toNat_boundAsCode _).trans hc.symm))
  · rw [decodeCode_endcode hx hc, (end_inClass (decodeEoi_inClass x) (isEnd_decodeEoi x)).1]
    exact congrArg some (BitVec.eq_of_toNat_eq ((toNat_boundAsCode _).trans hc.symm))
  · rw [decodeCode_reference hx hlow hhigh]
    rfl
  · rw [decodeCode_selfReference hx hc]
    rfl
  · rw [decodeCode_invalid hx hc]
    rfl

/-- In the context of its class every code value decodes to its instruction (30_encoding.md R93, R95). -/
theorem decodeCode_encodeCode {x : CodeContext} {i : Instr} {c : Code} (hx : x.ordered = true)
    (hin : i.inClass x = true) (hc : encodeCode x i = some c) : decodeCode x c = i := by
  cases i with
  | lit | litM2 | litM3 | litM4 | litM5 | litM6 | litM7 | litM8 =>
    obtain ⟨hlt, hlit⟩ := literal_inClass hin hc
    exact (decodeCode_literal hlt).trans hlit
  | clr | clrM2 | clrM3 | clrM4 | clrM5 | clrM6 | clrM7 | clrM8 =>
    obtain ⟨hval, hclr⟩ := clear_inClass hin rfl
    cases hval.symm.trans hc
    exact (decodeCode_clearcode (toNat_boundAsCode _)).trans hclr
  | eoi | eoiM2 | eoiM3 | eoiM4 | eoiM5 | eoiM6 | eoiM7 | eoiM8 =>
    obtain ⟨hval, heoi⟩ := end_inClass hin rfl
    cases hval.symm.trans hc
    exact (decodeCode_endcode hx (toNat_boundAsCode _)).trans heoi
  | ref =>
    cases hc
    obtain ⟨hlow, hhigh⟩ := Bool.and_eq_true_iff.1 hin
    exact decodeCode_reference hx (of_decide_eq_true hlow) (of_decide_eq_true hhigh)
  | kwk =>
    cases hc
    exact decodeCode_selfReference hx (eq_of_beq hin)
  | inv =>
    cases hc
    exact decodeCode_invalid hx (of_decide_eq_true hin)
  | decode | deint | clear => cases hc

/-! ## Bits packed to bytes -/

/-- Bit i of the value of bits is the i-th bit (30_encoding.md R99). -/
theorem bitsValue_testBit (bits : List Bool) (i : Nat) : (bitsValue bits).testBit i = bits.getD i false := by
  induction bits generalizing i with
  | nil => exact Nat.zero_testBit i
  | cons b bits ih =>
    rw [bitsValue]
    cases i with
    | zero =>
      rw [Nat.testBit_zero, Nat.add_mul_mod_self_left]
      cases b <;> rfl
    | succ i =>
      have hhalf : (b.toNat + 2 * bitsValue bits) / 2 = bitsValue bits := by
        have := Bool.toNat_lt b
        omega
      rw [Nat.testBit_succ, hhalf, ih, List.getD_cons_succ]

theorem packBits_length (bits : List Bool) : (packBits bits).length = (bits.length + 7) / 8 := by
  simp [packBits]

/-- Byte j packs the eight bits from 8 j on, 0 bits where none are left (30_encoding.md R99). -/
theorem packBits_getD (bits : List Bool) (j : Nat) :
    (packBits bits).getD j 0 = BitVec.ofNat 8 (bitsValue ((bits.drop (8 * j)).take 8)) := by
  by_cases hj : j < (bits.length + 7) / 8
  · simp [packBits, hj]
  · have hnone : bits.drop (8 * j) = [] := List.drop_eq_nil_of_le (by omega)
    rw [List.getD_eq_default _ _ (by rw [packBits_length]; omega), hnone]
    rfl

/-- Packing keeps every bit at its place (20_memory.md R61, 30_encoding.md R99). -/
theorem payloadBit_packBits (bits : List Bool) (n : Nat) : payloadBit (packBits bits) n = bits.getD n false := by
  have hlow : n % 8 < 8 := Nat.mod_lt _ (by decide)
  rw [payloadBit, packBits_getD, BitVec.getLsbD_ofNat, bitsValue_testBit]
  simp [hlow, Nat.div_add_mod]

/-- A code word is fetched from where it was packed, whatever bits stand around it (30_encoding.md R90, R99). -/
theorem fetchValue_packBits (pre post : List Bool) {w v : Nat} (hv : v < 2 ^ w) :
    fetchValue (packBits (pre ++ codeBits w v ++ post)) pre.length w = v := by
  refine Nat.eq_of_testBit_eq fun i => ?_
  by_cases hi : i < w
  · rw [fetchValue_testBit _ _ _ hi, payloadBit_packBits, List.append_assoc]
    simp [codeBits, hi, List.getElem?_append]
  · have hpow : 2 ^ w ≤ 2 ^ i := Nat.pow_le_pow_right (by decide) (by omega)
    rw [Nat.testBit_lt_two_pow (Nat.lt_of_lt_of_le (fetchValue_lt _ _ _) hpow),
      Nat.testBit_lt_two_pow (Nat.lt_of_lt_of_le hv hpow)]

theorem holds_lt {x : CodeContext} {c : Code} (h : x.holds c = true) : c.toNat < 2 ^ x.codesize.toNat :=
  of_decide_eq_true (Bool.and_eq_true_iff.1 h).2

/-- A value packed in CODESIZE bits is decoded as that value (30_encoding.md R90). -/
theorem decodeAt_packBits {x : CodeContext} {c : Code} (pre post : List Bool) (hc : x.holds c = true) :
    decodeAt x (packBits (pre ++ codeBits x.codesize.toNat c.toNat ++ post)) pre.length = .ok (decodeCode x c) := by
  have hfit : ¬ 8 * (packBits (pre ++ codeBits x.codesize.toNat c.toNat ++ post)).length
      < pre.length + x.codesize.toNat := by
    simp only [packBits_length, List.length_append, codeBits, List.length_map, List.length_range]
    omega
  rw [decodeAt, if_neg hfit, fetchValue_packBits pre post (holds_lt hc), BitVec.ofNat_toNat, BitVec.setWidth_eq]

/-! ## The command values -/

theorem decodeCtrl_ok_iff {v : BitVec 32} {i : Instr} :
    decodeCtrl v = .ok i ↔ (v = 1#32 ∧ i = .decode) ∨ (v = 2#32 ∧ i = .deint) ∨ (v = 4#32 ∧ i = .clear) := by
  unfold decodeCtrl
  split_ifs with h1 h2 h4
  · subst h1; simp [eq_comm]
  · subst h2; simp [eq_comm]
  · subst h4; simp [eq_comm]
  · simp [h1, h2, h4]

/-- Settles O10: the three tests of 30_encoding.md R97, one after the other. -/
theorem onlyThreeCommandValues : Obligations.OnlyThreeCommandValues := fun _ _ => decodeCtrl_ok_iff

/-- The word of a code is the bits of its value. -/
theorem encode_code {x : CodeContext} {i : Instr} {bits : List Bool} (h : encode x i = .code bits) :
    ∃ c, encodeCode x i = some c ∧ bits = codeBits x.codesize.toNat c.toNat := by
  unfold encode at h
  split at h
  · next c hc =>
    cases h
    exact ⟨c, hc, rfl⟩
  · cases h

/-- The CTRL value of a command decodes to it (30_encoding.md R97). -/
theorem decodeCtrl_encode {x : CodeContext} {i : Instr} {v : BitVec 32} (h : encode x i = .ctrl v) :
    decodeCtrl v = .ok i := by
  cases i with
  | decode => cases h; exact decodeCtrl_ok_iff.2 (.inl ⟨rfl, rfl⟩)
  | deint => cases h; exact decodeCtrl_ok_iff.2 (.inr (.inl ⟨rfl, rfl⟩))
  | clear => cases h; exact decodeCtrl_ok_iff.2 (.inr (.inr ⟨rfl, rfl⟩))
  | _ => cases h

/-- Settles O8: a code's bits are fetched as its value, and its value decodes to it; a command's value is its own. -/
theorem decodeOfEncodeIsIdentity : Obligations.DecodeOfEncodeIsIdentity := by
  refine ⟨fun x i bits pre post hx hin hholds h => ?_, fun x i v => decodeCtrl_encode⟩
  obtain ⟨c, hc, rfl⟩ := encode_code h
  rw [decodeAt_packBits pre post (hholds c hc), decodeCode_encodeCode hx hin hc]

/-- Settles O11: the words of the example in 40_bit_cursor.md R118 and of the commands, each decoded. -/
theorem sampleWordsDecode : Obligations.SampleWordsDecode := by
  unfold Obligations.SampleWordsDecode
  decide

end Sys2Proof.Machine
end

section
/-! PROOFS. The width schedule (30_encoding.md R101): what a code that emits a string adds to the table, and the width
that Grow keeps (41_lzw_codes.md R132, R133). -/

namespace Sys2Proof.Machine

/-! ## What a code that emits a string adds -/

/-- Add(PREV.CODE, b) has the effect of 41_lzw_codes.md R132 and R133 where a previous string exists. -/
theorem addEntry_added {s : State} (hprev : s.prevV = true) (b : Byte) : added b s (addEntry s.prevCode b s) := by
  refine ⟨fun ⟨_, hroom⟩ => ?_, fun hfull => ?_⟩
  · rw [addEntry_room hroom]
    exact ⟨Store.read_write_same .., rfl, rfl, fun c hc => Store.read_write_other hc ..⟩
  · have hfull := hfull.resolve_left (by simp [hprev])
    rw [addEntry_full (Nat.not_lt.2 hfull)]
    exact ⟨rfl, rfl, rfl⟩

theorem emit_added {b : Byte} {s t : State} (h : added b s t) (str : List Byte) : added b s (emit str t) := by
  obtain ⟨m, n, he⟩ := emit_writes_output str t
  rw [he]
  exact h

/-- A present code adds the first index of its string to the previous string (41_lzw_codes.md R134, R135). -/
theorem presentCode_added (c : Code) (b : Byte) (str : List Byte) (s : State) :
    added b s (presentCode c b str s) := by
  obtain ⟨m, n, he⟩ := emit_writes_output str (advance s)
  unfold presentCode
  rw [he]
  dsimp only
  split
  · next hprev => exact addEntry_added hprev b
  · next hprev => exact ⟨fun h => absurd h.1 hprev, fun _ => ⟨rfl, rfl, rfl⟩⟩

/-- The self-reference adds the first index of the previous string to it (41_lzw_codes.md R136). -/
theorem selfReference_added {s : State} (hprev : s.prevV = true) (c : Code) (b : Byte) (str : List Byte) :
    added b s (selfReference c b str s) :=
  emit_added (addEntry_added (s := advance s) hprev b) (str ++ [b])

theorem presentCode_prevV (c : Code) (b : Byte) (str : List Byte) (s : State) :
    (presentCode c b str s).prevV = true := prevOf_valid c

theorem selfReference_prevV (c : Code) (b : Byte) (str : List Byte) (s : State) :
    (selfReference c b str s).prevV = true := prevOf_valid c

/-- A code that emits a string, the self-reference only after a previous one, adds to the table and leaves a previous
string. -/
theorem ExecNext.added_of_emitsString {i : Instr} {s t : State} (h : ExecNext s i t) (hi : emitsString i = true)
    (hprev : s.prevV = true ∨ (literalOf i).isSome = true) : t.prevV = true ∧ ∃ b, added b s t := by
  cases h with
  | literal | reference => exact ⟨presentCode_prevV .., _, presentCode_added ..⟩
  | selfReference hv => exact ⟨selfReference_prevV .., _, selfReference_added hv ..⟩
  | noPrevious hnone => simp [hnone, literalOf] at hprev
  | clearCode hi' | endCode hi' => cases i <;> contradiction
  | invalid | decode | deint | clear => cases hi
  | busyCommand hi' => obtain rfl | rfl | rfl := hi' <;> cases hi

/-! ## The width -/

/-- w is the least width from m + 1 on, 12 at most, that holds n (10_state.md R39). -/
def leastWidth (m w n : Nat) : Prop :=
  m + 1 ≤ w ∧ w ≤ 12 ∧ (n < 2 ^ w ∨ (n = 4096 ∧ w = 12)) ∧ (m + 1 < w → 2 ^ (w - 1) ≤ n)

theorem leastWidth_eq {m w n : Nat} (hn : n ≠ 0) (h : leastWidth m w n) :
    w = if n = 4096 then 12 else max (m + 1) (Nat.log2 n + 1) := by
  obtain ⟨hlow, hhigh, hfit, hleast⟩ := h
  have hpow : 2 ^ w ≤ 4096 := Nat.pow_le_pow_right (n := 2) (by decide) hhigh
  split
  · next hfull => exact (hfit.resolve_left (by omega)).2
  · next hfull =>
    have hlog : Nat.log2 n < w := (Nat.log2_lt hn).2 (hfit.resolve_right fun h => hfull h.1)
    obtain hw | hw := Nat.eq_or_lt_of_le hlow
    · omega
    · have hlog' : w - 1 ≤ Nat.log2 n := (Nat.le_log2 hn).2 (hleast hw)
      omega

/-- The width after a table reset (10_state.md R41). -/
theorem leastWidth_initial {m : Nat} (hm : 2 ≤ m ∧ m ≤ 8) : leastWidth m (m + 1) (2 ^ m + 2) := by
  have hclear := pow_mincs_bounds hm rfl
  have hdouble : 2 ^ (m + 1) = 2 * 2 ^ m := Nat.pow_succ'
  exact ⟨Nat.le_refl _, by omega, .inl (by omega), fun h => absurd h (Nat.lt_irrefl _)⟩

/-- An addition raises NEXT by one, at most to 4096, and keeps the width least (41_lzw_codes.md R132, R133). -/
theorem added_schedule {m : Nat} {b : Byte} {s t : State} (hprev : s.prevV = true) (h : added b s t)
    (hnext : s.next.toNat ≤ 4096) (hw : leastWidth m s.codesize.toNat s.next.toNat) :
    t.next.toNat = min (s.next.toNat + 1) 4096 ∧ leastWidth m t.codesize.toNat t.next.toNat := by
  obtain ⟨hroom, hfull⟩ := h
  by_cases hlt : s.next.toNat < 4096
  · obtain ⟨-, hnext', hwidth', -⟩ := hroom ⟨hprev, hlt⟩
    have hsucc : t.next.toNat = s.next.toNat + 1 := by
      rw [hnext']
      change (s.next.toNat + 1) % 2 ^ 13 = _
      omega
    obtain ⟨hlow, hhigh, hfit, hleast⟩ := hw
    refine ⟨by omega, ?_⟩
    rw [hsucc, hwidth']
    exact grow_keeps_width hlt hlow hhigh hfit hleast (grown_codesize_toNat _ _)
  · obtain ⟨-, hnext', hwidth'⟩ := hfull (.inr (Nat.not_lt.1 hlt))
    rw [hnext', hwidth']
    exact ⟨by omega, hw⟩

/-! ## Runs of codes -/

theorem execAll_cons {i : Instr} {is : List Instr} {s t : State} :
    execAll (i :: is) s = some t ↔ ∃ u, exec i s = .next u ∧ execAll is u = some t := by
  rw [execAll]
  cases exec i s <;> simp

/-- A run of codes that emit strings after a previous one raises NEXT by one at each code, at most to 4096. -/
theorem execAll_schedule {m : Nat} {is : List Instr} {s t : State} (his : ∀ j, j ∈ is → emitsString j = true)
    (hprev : s.prevV = true) (hnext : s.next.toNat ≤ 4096) (hw : leastWidth m s.codesize.toNat s.next.toNat)
    (h : execAll is s = some t) :
    t.next.toNat = min (s.next.toNat + is.length) 4096 ∧ leastWidth m t.codesize.toNat t.next.toNat := by
  induction is generalizing s with
  | nil =>
    cases h
    exact ⟨(Nat.min_eq_left hnext).symm, hw⟩
  | cons i is ih =>
    obtain ⟨u, hexec, hrun⟩ := execAll_cons.1 h
    obtain ⟨hi, his⟩ := List.forall_mem_cons.1 his
    obtain ⟨hprev', b, hadd⟩ := (exec_next hexec).added_of_emitsString hi (.inl hprev)
    obtain ⟨hnext', hw'⟩ := added_schedule hprev hadd hnext hw
    obtain ⟨hlast, hwlast⟩ := ih his hprev' (by omega) hw' hrun
    exact ⟨by rw [List.length_cons]; omega, hwlast⟩

/-- Literals always run (41_lzw_codes.md R134). -/
theorem execAll_literals {is : List Instr} (his : ∀ j, j ∈ is → (literalOf j).isSome = true) (s : State) :
    ∃ t, execAll is s = some t := by
  induction is generalizing s with
  | nil => exact ⟨s, rfl⟩
  | cons i is ih =>
    obtain ⟨hi, his⟩ := List.forall_mem_cons.1 his
    obtain ⟨c, hc⟩ := Option.isSome_iff_exists.1 hi
    obtain ⟨t, ht⟩ := ih his (literalCode c s)
    exact ⟨t, execAll_cons.2 ⟨_, exec_literal hc s, ht⟩⟩

theorem emitsString_literal {i : Instr} (hi : (literalOf i).isSome = true) : emitsString i = true := by
  cases i with
  | lit | litM2 | litM3 | litM4 | litM5 | litM6 | litM7 | litM8 => rfl
  | _ => cases hi

/-- Settles O23: the first literal adds nothing and leaves a previous string; from there on every code adds an entry, and
Grow keeps the width the least that holds NEXT. -/
theorem widthSchedule : Obligations.WidthSchedule := by
  intro s i is hlow hhigh hclear hnext hwidth hprev hi his
  refine ⟨fun t h => ?_, fun hlits => execAll_literals (List.forall_mem_cons.2 ⟨hi, hlits⟩) s⟩
  obtain ⟨hclear4, hclear256⟩ := pow_mincs_bounds ⟨hlow, hhigh⟩ hclear
  obtain ⟨u, hexec, hrun⟩ := execAll_cons.1 h
  obtain ⟨hprev', b, -, hkeep⟩ := (exec_next hexec).added_of_emitsString (emitsString_literal hi) (.inr hi)
  obtain ⟨-, hnext', hwidth'⟩ := hkeep (.inl hprev)
  have hw : leastWidth s.mincs.toNat u.codesize.toNat u.next.toNat := by
    rw [hnext', hwidth', hnext, hwidth, hclear]
    exact leastWidth_initial ⟨hlow, hhigh⟩
  obtain ⟨hlast, hwlast⟩ := execAll_schedule his hprev' (by rw [hnext']; omega) hw hrun
  rw [hnext', hnext] at hlast
  exact ⟨hlast, leastWidth_eq (by omega) hwlast⟩

end Sys2Proof.Machine
end

section
/-! PROOFS. The bit cursor (40_bit_cursor.md): the fetch from three bytes (R115), the payload at every exit of the chain
and of a chain cut short (R111), the halt on too few bits (R116), the cursor's movement (R117). -/

namespace Sys2Proof.Machine

/-! ## The byte-wise fetch -/

/-- Three payload bytes in a row, the first in the low bits, hold the 24 payload bits from the first byte's bit 0 on. -/
theorem threeBytes_testBit (p : List Byte) (q : Nat) {j : Nat} (hj : j < 24) :
    ((p.getD q 0).toNat ||| (p.getD (q + 1) 0).toNat <<< 8 ||| (p.getD (q + 2) 0).toNat <<< 16).testBit j
      = payloadBit p (8 * q + j) := by
  have hrem : (8 * q + j) % 8 = j % 8 := Nat.mul_add_mod 8 q j
  have hquot : (8 * q + j) / 8 = q + j / 8 := Nat.mul_add_div (by decide) q j
  simp only [payloadBit, hrem, hquot, Nat.testBit_or, Nat.testBit_shiftLeft, BitVec.testBit_toNat]
  obtain hbyte | hbyte | hbyte : j / 8 = 0 ∨ j / 8 = 1 ∨ j / 8 = 2 := by omega
  · have hpos : j = j % 8 := by omega
    have h8 : ¬ j ≥ 8 := by omega
    have h16 : ¬ j ≥ 16 := by omega
    simp [hbyte, h8, h16, ← hpos]
  · have hpos : j - 8 = j % 8 := by omega
    have h8 : j ≥ 8 := by omega
    have h16 : ¬ j ≥ 16 := by omega
    simp [hbyte, h8, h16, hpos, BitVec.getLsbD_of_ge]
  · have hpos : j - 16 = j % 8 := by omega
    have h8 : j ≥ 8 := by omega
    have h8' : j - 8 ≥ 8 := by omega
    have h16 : j ≥ 16 := by omega
    simp [hbyte, h8, h8', h16, hpos, BitVec.getLsbD_of_ge]

/-- Settles O2: bit i of both sides is payload bit b + i, which is bit b mod 8 + i of the three bytes from b div 8 on,
12 bits at most from bit 7 at most being among their 24; beyond the width both sides are 0. -/
theorem fetchFromThreeBytes : Obligations.FetchFromThreeBytes := by
  intro p b w hw
  refine Nat.eq_of_testBit_eq fun i => ?_
  rw [Nat.testBit_mod_two_pow, Nat.testBit_shiftRight]
  by_cases hi : i < w
  · have hsplit : 8 * (b / 8) + (b % 8 + i) = b + i := by rw [← Nat.add_assoc, Nat.div_add_mod]
    rw [fetchValue_testBit p b w hi, threeBytes_testBit p (b / 8) (by omega), hsplit, decide_eq_true hi,
      Bool.true_and]
  · have hhigh : 2 ^ w ≤ 2 ^ i := Nat.pow_le_pow_right (by decide) (Nat.le_of_not_lt hi)
    rw [Nat.testBit_lt_two_pow ((fetchValue_lt p b w).trans_le hhigh), decide_eq_false hi, Bool.false_and]

/-! ## The payload -/

theorem stripChain_nil (fuel : Nat) : stripChain fuel [] = [] := by cases fuel <;> rfl

theorem stripChain_cons {n : Byte} (hn : n.toNat ≠ 0) (fuel : Nat) (rest : List Byte) :
    stripChain (fuel + 1) (n :: rest) = rest.take n.toNat ++ stripChain fuel (rest.drop n.toNat) := if_neg hn

/-- Exit (c): of a sub-block cut short the bytes that exist are payload (40_bit_cursor.md R111). -/
theorem stripChain_cutBlock {n : Byte} {data : List Byte} (h : data.length < n.toNat) (fuel : Nat) :
    stripChain (fuel + 1) (n :: data) = data := by
  rw [stripChain_cons (Nat.ne_zero_of_lt h), List.take_of_length_le h.le, List.drop_of_length_le h.le,
    stripChain_nil, List.append_nil]

theorem stripChain_length_le (fuel : Nat) (l : List Byte) : (stripChain fuel l).length ≤ l.length := by
  induction fuel generalizing l with
  | zero => exact Nat.zero_le _
  | succ fuel ih =>
    cases l with
    | nil => exact Nat.le_refl _
    | cons n rest =>
      by_cases hn : n.toNat = 0
      · simp [stripChain, hn]
      · have hrest := ih (rest.drop n.toNat)
        rw [stripChain_cons hn]
        simp only [List.length_append, List.length_take, List.length_drop, List.length_cons] at hrest ⊢
        omega

/-- The bound on the number of sub-blocks does not matter once it is the number of bytes. -/
theorem stripChain_fuel {fuel fuel' : Nat} {l : List Byte} (h : l.length ≤ fuel) (h' : l.length ≤ fuel') :
    stripChain fuel l = stripChain fuel' l := by
  induction fuel generalizing fuel' l with
  | zero => rw [List.length_eq_zero_iff.1 (Nat.le_zero.1 h), stripChain_nil, stripChain_nil]
  | succ fuel ih =>
    cases l with
    | nil => rw [stripChain_nil, stripChain_nil]
    | cons n rest =>
      obtain ⟨f, rfl⟩ := Nat.exists_eq_add_of_le' (Nat.le_of_add_left_le h')
      rw [List.length_cons] at h h'
      by_cases hn : n.toNat = 0
      · simp [stripChain, hn]
      · rw [stripChain_cons hn, stripChain_cons hn,
          ih (fuel' := f) (by rw [List.length_drop]; omega) (by rw [List.length_drop]; omega)]

theorem payload_bare {s : State} (h : s.chain = false) : s.payload = s.inputBytes := by
  simp [State.payload, h]

theorem payload_chain {s : State} (h : s.chain = true) :
    s.payload = stripChain (s.inputBytes.length + 1) s.inputBytes := if_pos h

theorem inputBytes_length (s : State) : s.inputBytes.length = s.ilen.toNat := by simp [State.inputBytes]

theorem payload_length_le (s : State) : s.payload.length ≤ s.ilen.toNat := by
  rw [← inputBytes_length]
  cases h : s.chain with
  | false => rw [payload_bare h]
  | true => rw [payload_chain h]; exact stripChain_length_le _ _

/-- Settles O3: the payload in chain mode is the input stripped, by the exit the length byte and the bytes after it
decide. -/
theorem payloadStripsFraming : Obligations.PayloadStripsFraming := by
  intro s
  refine ⟨inputBytes_length s, payload_length_le s, fun a ha => by simp [State.inputBytes, ha], payload_bare,
    fun h hin => ?_, fun rest h hin => ?_, fun n data rest h hn hlen hin => ?_, fun n data h _ hlen hin => ?_⟩
  · rw [payload_chain h, hin, stripChain_nil]
  · rw [payload_chain h, hin, stripChain_terminator]
  · have hpos : 1 ≤ data.length := by
      rw [hlen]
      exact Nat.pos_of_ne_zero fun h0 => hn (BitVec.eq_of_toNat_eq h0)
    rw [payload_chain h, hin, stripChain_block hlen.symm hpos,
      stripChain_fuel (fuel' := rest.length + 1) (by simp only [List.length_cons, List.length_append]; omega)
        (Nat.le_succ _)]
  · rw [payload_chain h, hin, stripChain_cutBlock hlen]

/-- Whole sub-blocks contribute their data, the one the cut falls in the bytes before it, the later ones nothing. -/
theorem stripChain_take_prefix {bs : List (List Byte)} (hbs : legalCut bs = true) (fuel k : Nat) :
    stripChain fuel ((frameCut bs).take k) <+: bs.flatten := by
  induction bs generalizing fuel k with
  | nil => cases fuel <;> cases k <;> exact List.nil_prefix
  | cons b bs ih =>
    obtain ⟨⟨hlow, hhigh⟩, hrest⟩ := legalCut_cons.1 hbs
    have hn : (BitVec.ofNat 8 b.length).toNat = b.length := Nat.mod_eq_of_lt (by omega)
    cases fuel with
    | zero => exact List.nil_prefix
    | succ fuel =>
      cases k with
      | zero => exact List.nil_prefix
      | succ k =>
        rw [frameCut, List.take_succ_cons, List.flatten_cons]
        by_cases hk : k < b.length
        · rw [List.take_append_of_le_length hk.le, stripChain_cutBlock (by rw [hn, List.length_take]; omega)]
          exact (List.take_prefix k b).trans (List.prefix_append b _)
        · rw [List.take_append, List.take_of_length_le (Nat.le_of_not_lt hk), stripChain_block hn hlow]
          exact (List.prefix_append_right_inj b).2 (ih hrest fuel _)

/-- Settles O5: stripping a cut chain gives an initial segment of the sub-blocks' data. -/
theorem cutChainGivesInitialSegment : Obligations.CutChainGivesInitialSegment := by
  intro s bs k hchain hbs hinput
  rw [payload_chain hchain, hinput]
  exact ⟨_, List.prefix_iff_eq_take.1 (stripChain_take_prefix hbs _ k)⟩

/-! ## The cursor -/

/-- On the engine's turn only the host's script may differ from the state before it. -/
theorem engineTurn_eq_setScript {s u : State} (h : engineTurn s u) : ∃ moves, u = setScript moves s := by
  obtain ⟨-, rfl⟩ | ⟨rest, -, rfl⟩ | ⟨-, -, rfl⟩ := h
  · exact ⟨u.script, rfl⟩
  · exact ⟨rest, rfl⟩
  · exact ⟨u.script, rfl⟩

theorem fetch_rejected {s : State} (h : s.bitsLeft < s.codesize.toNat) : s.fetch = .rejected .outOfBits := by
  have hshort : 8 * s.payload.length < s.bitpos.toNat + s.codesize.toNat := by
    unfold State.bitsLeft at h
    omega
  exact if_pos hshort

theorem decodeStep_tooFewBits {s : State} (hcount : s.ocnt.toNat < s.expect.toNat)
    (hbits : s.bitsLeft < s.codesize.toNat) : decodeStep s = .next (haltTrunc s) := by
  rw [decodeStep, if_neg (Nat.not_le.2 hcount), fetch_rejected hbits]

/-- The STATUS word of halt(TRUNC): DONE, TRUNC and SHORT (60_exceptions.md R210). -/
theorem truncWord_eq : truncWord = 0x00000062#32 := by decide

/-- Settles O15: the engine's turn is a DecodeStep, whose fetch is rejected, so it halts with TRUNC. -/
theorem tooFewBitsHaltTrunc : Obligations.TooFewBitsHaltTrunc := by
  intro s u hturn hb hopk hcount hbits
  obtain ⟨moves, rfl⟩ := engineTurn_eq_setScript hturn
  have hdecode : engineStep (setScript moves s) = decodeStep (setScript moves s) := engineStep_decoding hb hopk
  have hhalt : decodeStep (setScript moves s) = .next (haltTrunc (setScript moves s)) :=
    decodeStep_tooFewBits hcount hbits
  rw [step_engineTurn hturn, hdecode, hhalt, haltTrunc, truncWord_eq]
  rfl

@[simp] theorem presentCode_bitpos (c : Code) (b : Byte) (str : List Byte) (s : State) :
    (presentCode c b str s).bitpos = s.pastCode := by
  obtain ⟨m, n, w, t, x, h⟩ := presentCode_writes c b str s
  simp [h, advance, State.pastCode]

@[simp] theorem selfReference_bitpos (c : Code) (b : Byte) (str : List Byte) (s : State) :
    (selfReference c b str s).bitpos = s.pastCode := by
  obtain ⟨m, n, w, t, x, h⟩ := selfReference_writes c b str s
  simp [h, advance, State.pastCode]

/-- Every code, the faulting ones included, leaves the cursor past itself (40_bit_cursor.md R114). -/
theorem CodeNext.bitpos_eq {s t : State} (h : CodeNext s t) : t.bitpos = s.pastCode := by
  cases h with
  | present => exact presentCode_bitpos ..
  | selfReference => exact selfReference_bitpos ..
  | clearCode | endCode | noPrevious | invalid => rfl

/-- BITPOS has room for every payload (10_state.md R33): a payload has fewer than 2^35 bits. -/
theorem pastCode_toNat {s : State} (hfit : s.bitpos.toNat + s.codesize.toNat ≤ 8 * s.payload.length) :
    s.pastCode.toNat = s.bitpos.toNat + s.codesize.toNat := by
  have hlen := payload_length_le s
  have hilen := s.ilen.isLt
  rw [State.pastCode, BitVec.toNat_add, BitVec.toNat_setWidth, Nat.add_mod_mod]
  exact Nat.mod_eq_of_lt (by omega)

/-- Settles O49: a halt leaves the cursor, and a code the payload still holds moves it past itself. -/
theorem cursorOnlyMovesForward : Obligations.CursorOnlyMovesForward := by
  intro s t hinv hb h
  obtain ⟨-, -, hsafe⟩ := inv_iff.1 hinv
  have hrun := hsafe.running hb
  obtain ⟨-, -, -, -, -, -, -, -, -, -, -, -, hbound, -⟩ := hrun.work
  rw [engineStep_decoding hb hrun.opk] at h
  obtain ⟨-, rfl⟩ | ⟨-, -, rfl⟩ | ⟨-, i, hfetch, hexec⟩ := decodeStep_next h
  · exact ⟨.inl rfl, hbound⟩
  · exact ⟨.inl rfl, hbound⟩
  · obtain ⟨hfit, -⟩ := fetch_ok hfetch
    have hcursor : t.bitpos.toNat = s.bitpos.toNat + s.codesize.toNat := by
      rw [(codeNext_of_fetch hfetch hexec).bitpos_eq, pastCode_toNat hfit]
    exact ⟨.inr hcursor, hcursor ▸ hfit⟩

end Sys2Proof.Machine
end

section
/-! PROOFS. What the codes do, class by class (41_lzw_codes.md R134 to R139), and how the engine's turn runs them (R126,
43_host_commands.md R182). -/

namespace Sys2Proof.Machine

/-! ## What a code that emits a string stores, and what it leaves alone -/

/-- A present code stores its string (41_lzw_codes.md R134, R135). -/
theorem presentCode_stored (c : Code) (b : Byte) (str : List Byte) (s : State) :
    stored str s (presentCode c b str s) := by
  have hemit := emit_stored str (advance s)
  unfold presentCode
  dsimp only
  split
  · obtain ⟨w, t, n, hadd⟩ := addEntry_writes (emit str (advance s)).prevCode b (emit str (advance s))
    rw [hadd]
    exact hemit
  · exact hemit

/-- The self-reference stores the previous string with its first index appended (41_lzw_codes.md R136). -/
theorem selfReference_stored (c : Code) (b : Byte) (str : List Byte) (s : State) :
    stored (str ++ [b]) s (selfReference c b str s) := by
  obtain ⟨w, t, n, hadd⟩ := addEntry_writes s.prevCode b (advance s)
  have hemit := emit_stored (str ++ [b]) (addEntry s.prevCode b (advance s))
  rw [hadd] at hemit
  rw [selfReference, hadd]
  exact hemit

theorem presentCode_frame (c : Code) (b : Byte) (str : List Byte) (s : State) :
    codeFrame s (presentCode c b str s) := by
  obtain ⟨m, n, w, t, x, h⟩ := presentCode_writes c b str s
  simp [codeFrame, h, advance]

theorem selfReference_frame (c : Code) (b : Byte) (str : List Byte) (s : State) :
    codeFrame s (selfReference c b str s) := by
  obtain ⟨m, n, w, t, x, h⟩ := selfReference_writes c b str s
  simp [codeFrame, h, advance]

theorem presentCode_prevCode (c : Code) (b : Byte) (str : List Byte) (s : State) :
    (presentCode c b str s).prevCode = c := prevOf_code c

theorem selfReference_prevCode (c : Code) (b : Byte) (str : List Byte) (s : State) :
    (selfReference c b str s).prevCode = c := prevOf_code c

section
variable {s t : State} (h : codeFrame s t)
include h

theorem codeFrame.status_eq : t.status = s.status := h.1

theorem codeFrame.clearcode_eq : t.clearcode = s.clearcode := by
  obtain ⟨-, -, -, -, -, -, -, -, hclear, -⟩ := h
  exact hclear

theorem codeFrame.endcode_eq : t.endcode = s.endcode := by
  obtain ⟨-, -, -, -, -, -, -, -, -, hend, -⟩ := h
  exact hend

end

/-- Settles O17: a literal is a present code whose string is its own index. -/
theorem literalCodeEffect : Obligations.LiteralCodeEffect := fun _ _ s hi =>
  ⟨_, exec_literal hi s, presentCode_bitpos .., presentCode_stored .., presentCode_added .., presentCode_prevV ..,
    presentCode_prevCode .., presentCode_frame ..⟩

/-- Settles O18: a reference is a present code. -/
theorem referenceCodeEffect : Obligations.ReferenceCodeEffect := fun _ _ _ _ hstr =>
  ⟨_, (ExecNext.reference hstr).exec_eq, presentCode_bitpos .., presentCode_stored .., presentCode_added ..,
    presentCode_prevV .., presentCode_prevCode .., presentCode_frame ..⟩

/-! ## The codes that end a decode -/

theorem endWord_eq (short : Bool) : endWord short = if short then 0x0000004A#32 else 0x0000000A#32 := by
  cases short <;> decide

/-- Settles O20: every form answers halt(END) of the state past the code. -/
theorem endCodeEffect : Obligations.EndCodeEffect := by
  intro i s hi
  have hstatus : endWord s.isShort = if s.ocnt.toNat < s.expect.toNat then 0x0000004A#32 else 0x0000000A#32 := by
    rw [endWord_eq, State.isShort]
    simp only [decide_eq_true_eq]
  rw [exec_endCode hi, ← hstatus]
  rfl

/-- Settles O22: the fault record and the STATUS word of cause 2. -/
theorem invalidCodeEffect : Obligations.InvalidCodeEffect := by
  intro c s
  have hstatus : errorWord 2 = 0x00000404#32 := by decide
  rw [(ExecNext.invalid (s := s)).exec_eq, ← hstatus]
  rfl

/-! ## The clear code -/

/-- NEXT after a table reset (10_state.md R41): 13 bits hold CLEARCODE + 2. -/
theorem tableReset_next (s : State) : (tableReset s).next.toNat = s.clearcode.toNat + 2 := by
  have := s.clearcode.isLt
  change (s.clearcode.toNat + 2) % 2 ^ 13 = _
  omega

/-- After a table reset the literals are the present codes, and no other code has a string (10_state.md R41). -/
theorem tableReset_str (s : State) (c : Code) :
    (tableReset s).str c = if c.toNat < s.clearcode.toNat then some [c.setWidth 8] else none := by
  split
  · next hc => exact str_literal (s := tableReset s) hc
  · next hc =>
    refine Option.eq_none_iff_forall_ne_some.2 fun str hstr => ?_
    have hpresent := present_iff.1 (present_of_str hstr)
    rw [tableReset_next] at hpresent
    change c.toNat < s.clearcode.toNat ∨ (s.clearcode.toNat + 2 ≤ c.toNat ∧ _) at hpresent
    omega

theorem clearCode_frame (s : State) : codeFrame s (clearCode s) := by
  simp [codeFrame, clearCode, tableReset, advance]

/-- Settles O21: every form resets the table of the state past the code. -/
theorem clearCodeEffect : Obligations.ClearCodeEffect := by
  intro i s hi
  exact ⟨clearCode s, exec_clearCode hi s, rfl, rfl, tableReset_next (advance s), rfl,
    fun k hk => (read_withLiterals ..).trans (if_pos hk),
    fun k hk => (read_withLiterals ..).trans (if_neg (Nat.not_lt.2 hk)),
    fun c hc => (tableReset_str (advance s) c).trans (if_neg (Nat.not_lt.2 hc)), rfl, fun _ => rfl, clearCode_frame s⟩

/-! ## The engine's turn -/

theorem decodeStep_runs {s : State} {i : Instr} (hcount : s.ocnt.toNat < s.expect.toNat) (hfetch : s.fetch = .ok i) :
    decodeStep s = exec i s := by
  rw [decodeStep, if_neg (Nat.not_le.2 hcount), hfetch]

theorem decodeStep_counted {s : State} (hcount : s.expect.toNat ≤ s.ocnt.toNat) :
    decodeStep s = .next (haltCount s) := if_pos hcount

/-- On the engine's turn of a running DECODE the step is a DecodeStep (41_lzw_codes.md R126). -/
theorem step_decoding {s u : State} (hturn : engineTurn s u) (hb : s.busy = true) (hopk : s.opk = false) :
    step s = decodeStep u := by
  obtain ⟨moves, rfl⟩ := engineTurn_eq_setScript hturn
  rw [step_engineTurn hturn]
  exact engineStep_decoding hb hopk

/-- The host's next action is the step (43_host_commands.md R180; log entry 1). -/
theorem step_act {s : State} {a : HostAction} {rest : List HostMove} (h : s.script = .act a :: rest) :
    step s = hostAct a (setScript rest s) := by
  simp [step, machineStep, h]

theorem hostAct_command {v : Nat} {i : Instr} (h : decodeCtrl (BitVec.ofNat 32 v) = .ok i) (s : State) :
    hostAct (.writeReg 0 v) s = exec i s := by
  simp [hostAct, hostCommand, h]

/-- Settles O12: the turn changes at most the host's script, which no fetch reads. -/
theorem stepRunsDecodedInstruction : Obligations.StepRunsDecodedInstruction := by
  refine ⟨fun s u i hturn hb hopk hcount hfetch => ?_, fun s a rest h => step_act h, fun s i v rest h hi => ?_⟩
  · rw [step_decoding hturn hb hopk]
    obtain ⟨moves, rfl⟩ := engineTurn_eq_setScript hturn
    exact decodeStep_runs hcount hfetch
  · rw [step_act h, hostAct_command hi]
    rfl

/-- Settles O14: the engine's turn is a DecodeStep, whose first test is the count test. -/
theorem countHaltsFirst : Obligations.CountHaltsFirst := by
  intro s u hturn hb hopk hcount
  have hhalt : decodeStep u = .next (haltCount u) := by
    obtain ⟨moves, rfl⟩ := engineTurn_eq_setScript hturn
    exact decodeStep_counted hcount
  have hstatus : countWord = 0x00000012#32 := by decide
  rw [step_decoding hturn hb hopk, hhalt, haltCount, hstatus]
  rfl

end Sys2Proof.Machine
end

section
/-! PROOFS. Strings (00_scope.md R11): what one link of a chain says, the strings that a longer table keeps, and the
strings of a running decode (41_lzw_codes.md R131), in which the engine's step is total (R127). -/

namespace Sys2Proof.Machine

/-! ## Chains -/

/-- A string is a literal's index, or an earlier string with a suffix appended (00_scope.md R11). -/
theorem chainString_succ {tab : Table} {clear next fuel c : Nat} {str : List Byte} :
    chainString tab clear next (fuel + 1) c = some str ↔
      (c < clear ∧ str = [BitVec.ofNat 8 c])
      ∨ (clear + 2 ≤ c ∧ c < next ∧ ∃ p b u, Store.read c tab = some ⟨some p, b⟩
          ∧ chainString tab clear next fuel p.toNat = some u ∧ str = u ++ [b]) := by
  rw [chainString]
  split_ifs with hlit hlearned
  · have hnot : ¬ clear + 2 ≤ c := by omega
    simp [hlit, hnot, eq_comm]
  · obtain ⟨hlow, hhigh⟩ := hlearned
    simp only [hlit, hlow, hhigh, false_and, false_or, true_and]
    split
    · next p b hread => simp [hread, eq_comm]
    · next hread => exact ⟨nofun, fun ⟨p, b, _, hp, _⟩ => absurd hp (hread p b)⟩
  · simp only [hlit, false_and, false_or]
    exact ⟨nofun, fun ⟨hlow, hhigh, _⟩ => absurd ⟨hlow, hhigh⟩ hlearned⟩

/-- A string stays when the table grows and when longer chains are allowed. -/
theorem chainString_extend {tab tab' : Table} {clear next next' fuel fuel' c : Nat} {str : List Byte}
    (htab : ∀ c, c < next → Store.read c tab' = Store.read c tab) (hnext : next ≤ next') (hfuel : fuel ≤ fuel')
    (h : chainString tab clear next fuel c = some str) : chainString tab' clear next' fuel' c = some str := by
  induction fuel generalizing fuel' c str with
  | zero => cases h
  | succ fuel ih =>
    obtain ⟨f, rfl⟩ := Nat.exists_eq_add_of_le' (Nat.le_of_add_left_le hfuel)
    refine chainString_succ.2 ?_
    obtain hlit | ⟨hlow, hhigh, p, b, u, hread, hu, hstr⟩ := chainString_succ.1 h
    · exact .inl hlit
    · exact .inr ⟨hlow, by omega, p, b, u, (htab c hhigh).trans hread, ih (by omega) hu, hstr⟩

/-- A learned code's string is that of its PREFIX with its SUFFIX appended (00_scope.md R11, 41_lzw_codes.md R131). -/
theorem str_learned {s : State} {c p : Code} {b : Byte} {u : List Byte} (hlow : s.clearcode.toNat + 2 ≤ c.toNat)
    (hhigh : c.toNat < s.next.toNat) (hread : Store.read c.toNat s.tab = some ⟨some p, b⟩) (hp : s.str p = some u)
    (hlt : p.toNat < c.toNat) : s.str c = some (u ++ [b]) :=
  chainString_succ.2 (.inr ⟨hlow, hhigh, p, b, u, hread,
    chainString_extend (fun _ _ => rfl) (Nat.le_refl _) hlt hp, rfl⟩)

/-- A string begins with the index of a literal (41_lzw_codes.md R131). -/
theorem str_cons {s : State} {c : Code} {str : List Byte} (hclear : s.clearcode.toNat ≤ 256)
    (h : s.str c = some str) : ∃ b rest, str = b :: rest := by
  obtain ⟨b, rest, hstr, -⟩ := chainString_head hclear h
  exact ⟨b, rest, hstr⟩

/-! ## The strings of a running decode -/

/-- What 41_lzw_codes.md R131 says of the string of c. -/
def boundedString (s : State) (c : Code) (str : List Byte) : Prop :=
  (∀ b, b ∈ str → b.toNat < s.clearcode.toNat)
  ∧ (c.toNat < s.clearcode.toNat → str = [c.setWidth 8])
  ∧ (s.clearcode.toNat + 2 ≤ c.toNat → 2 ≤ str.length ∧ str.length ≤ c.toNat - s.clearcode.toNat)

theorem boundedString_literal {s : State} (hclear : s.clearcode.toNat ≤ 256) {c : Code}
    (hc : c.toNat < s.clearcode.toNat) : boundedString s c [c.setWidth 8] := by
  refine ⟨fun b hb => ?_, fun _ => rfl, fun hlow => by omega⟩
  rw [List.mem_singleton.1 hb, BitVec.toNat_setWidth]
  omega

/-- A link adds one index, and PREFIX is a smaller code (41_lzw_codes.md R131). -/
theorem boundedString_link {s : State} {c p : Code} {b : Byte} {u : List Byte} (hu : boundedString s p u)
    (hp : s.present p.toNat = true) (hlow : s.clearcode.toNat + 2 ≤ c.toNat) (hlt : p.toNat < c.toNat)
    (hb : b.toNat < s.clearcode.toNat) : boundedString s c (u ++ [b]) := by
  obtain ⟨hbelow, hliteral, hlearned⟩ := hu
  refine ⟨fun b' hb' => ?_, fun hc => by omega, fun _ => ?_⟩
  · obtain hb' | hb' := List.mem_append.1 hb'
    · exact hbelow b' hb'
    · rwa [List.mem_singleton.1 hb']
  · rw [List.length_append, List.length_singleton]
    obtain hp | ⟨hp, -⟩ := present_iff.1 hp
    · rw [hliteral hp, List.length_singleton]
      omega
    · have hlength := hlearned hp
      omega

/-- Along the descending chain every present code has a string, within its bounds (41_lzw_codes.md R131). -/
theorem str_of_present {s : State} (hs : Running s) {c : Code} (hc : s.present c.toNat = true) :
    ∃ str, s.str c = some str ∧ boundedString s c str := by
  obtain ⟨-, hlearned⟩ := hs.table
  obtain ⟨-, -, hend, -⟩ := hs.work
  induction hn : c.toNat using Nat.strong_induction_on generalizing c with
  | _ n ih =>
    subst hn
    obtain hlit | ⟨hlow, hhigh⟩ := present_iff.1 hc
    · exact ⟨_, str_literal hlit, boundedString_literal hs.clear_bounds.2 hlit⟩
    · obtain ⟨p, b, hread, hlt, hnotClear, hnotEnd, hb⟩ := hlearned c.toNat hlow hhigh
      have hp : s.present p.toNat = true := present_iff.2 (by omega)
      obtain ⟨u, hu, hbounded⟩ := ih p.toNat hlt hp rfl
      exact ⟨_, str_learned hlow hhigh hread hu hlt, boundedString_link hbounded hp hlow hlt hb⟩

/-- Settles O45: by strong induction on the code, along the chain that descends to a literal. -/
theorem stringsAreBounded : Obligations.StringsAreBounded := by
  intro s c hinv hb hc
  obtain ⟨-, -, hsafe⟩ := inv_iff.1 hinv
  exact str_of_present (hsafe.running hb) hc

/-! ## What a fetched value answers -/

/-- What the code table of a decode is, with or without bounds on the buffers: the values are in the order of
30_encoding.md R94, every present code has a string (41_lzw_codes.md R131), the previous code is a present one. -/
structure Chained (s : State) : Prop where
  clear   : s.clearcode.toNat ≤ 256
  endcode : s.endcode.toNat = s.clearcode.toNat + 1
  next    : s.clearcode.toNat + 2 ≤ s.next.toNat
  strings : ∀ c : Code, s.present c.toNat = true → ∃ str, s.str c = some str
  prev    : s.prevV = true → s.present s.prevCode.toNat = true

theorem Running.chained {s : State} (h : Running s) : Chained s := by
  obtain ⟨-, -, hend, -, -, -, -, -, -, hprev, -⟩ := h.work
  refine ⟨h.clear_bounds.2, hend, h.next_bounds.1, fun c hc => ?_, fun hv => ?_⟩
  · obtain ⟨str, hstr, -⟩ := str_of_present h hc
    exact ⟨str, hstr⟩
  · have hcode := hprev hv
    exact present_iff.2 (by omega)

theorem Chained.ordered {s : State} (h : Chained s) : s.context.ordered = true :=
  ordered_iff.2 ⟨h.endcode, h.next⟩

theorem Chained.str_cons {s : State} (h : Chained s) {c : Code} (hc : s.present c.toNat = true) :
    ∃ b rest, s.str c = some (b :: rest) := by
  obtain ⟨str, hstr⟩ := h.strings c hc
  obtain ⟨b, rest, rfl⟩ := Machine.str_cons h.clear hstr
  exact ⟨b, rest, hstr⟩

/-- A code that is not present has no string. -/
theorem str_of_not_present {s : State} {c : Code} (hc : ¬ s.present c.toNat = true) : s.str c = none :=
  Option.eq_none_iff_forall_ne_some.2 fun _ hstr => hc (present_of_str hstr)

/-- The states a value c answers with where the table is chained, by the class of c (30_encoding.md R93). -/
inductive ValueNext (s : State) (c : Code) : State → Prop
  | present {b : Byte} {rest : List Byte} (hstr : s.str c = some (b :: rest)) :
      ValueNext s c (presentCode c b (b :: rest) s)
  | clearCode (hc : c.toNat = s.clearcode.toNat) : ValueNext s c (clearCode s)
  | endCode (hc : c.toNat = s.endcode.toNat) : ValueNext s c (endCode s)
  | selfReference {b : Byte} {rest : List Byte} (hc : c.toNat = s.next.toNat) (hprev : s.prevV = true)
      (hstr : s.str s.prevCode = some (b :: rest)) : ValueNext s c (selfReference c b (b :: rest) s)
  | noPrevious (hc : c.toNat = s.next.toNat) (hprev : s.prevV = false) :
      ValueNext s c (raiseFormatError 1 c s.bitpos (advance s))
  | invalid (hc : s.next.toNat < c.toNat) : ValueNext s c (invalidCode c s)

/-- Every value answers (41_lzw_codes.md R127). -/
theorem exec_decodeCode {s : State} (hs : Chained s) (c : Code) :
    ∃ t, exec (decodeCode s.context c) s = .next t ∧ ValueNext s c t := by
  obtain ⟨hliteral, hclear, hend, href, hself, hinvalid⟩ := classOfFetchedValue s.context c hs.ordered
  obtain hc | hc | hc | ⟨hlow, hhigh⟩ | hc | hc := fetchedValue_cases hs.ordered c
  · exact ⟨_, exec_literal (hliteral hc) s, .present (str_literal hc)⟩
  · exact ⟨_, exec_clearCode (hclear hc) s, .clearCode hc⟩
  · exact ⟨_, exec_endCode (hend hc) s, .endCode hc⟩
  · obtain ⟨b, rest, hstr⟩ := hs.str_cons (present_iff.2 (.inr ⟨hlow, hhigh⟩))
    rw [href hlow hhigh]
    exact ⟨_, (ExecNext.reference hstr).exec_eq, .present hstr⟩
  · rw [hself hc]
    cases hprev : s.prevV with
    | true =>
      obtain ⟨b, rest, hstr⟩ := hs.str_cons (hs.prev hprev)
      exact ⟨_, (ExecNext.selfReference hprev hstr).exec_eq, .selfReference hc hprev hstr⟩
    | false => exact ⟨_, (ExecNext.noPrevious hprev).exec_eq, .noPrevious hc hprev⟩
  · rw [hinvalid hc]
    exact ⟨_, ExecNext.invalid.exec_eq, .invalid hc⟩

/-- A fetched instruction is the class of some value (40_bit_cursor.md R114). -/
theorem fetch_decodeCode {s : State} {i : Instr} (h : s.fetch = .ok i) : ∃ c, i = decodeCode s.context c := by
  unfold State.fetch decodeAt at h
  split at h <;> cases h
  exact ⟨_, rfl⟩

theorem decodeStep_total {s : State} (hs : Chained s) : ∃ t, decodeStep s = .next t := by
  obtain hcount | hcount := Nat.lt_or_ge s.ocnt.toNat s.expect.toNat
  · cases hfetch : s.fetch with
    | rejected e => exact ⟨haltTrunc s, by rw [decodeStep, if_neg (Nat.not_le.2 hcount), hfetch]⟩
    | ok i =>
      obtain ⟨c, rfl⟩ := fetch_decodeCode hfetch
      obtain ⟨t, ht, -⟩ := exec_decodeCode hs c
      exact ⟨t, (decodeStep_runs hcount hfetch).trans ht⟩
  · exact ⟨haltCount s, decodeStep_counted hcount⟩

/-- Settles O46: a running decode has a chained table, where every value answers; a block at rest answers itself; and an
engine step keeps each of the three parts of the invariant. -/
theorem engineStepIsTotal : Obligations.EngineStepIsTotal := by
  intro s hinv
  obtain ⟨hcanonical, hstatus, hsafe⟩ := inv_iff.1 hinv
  have htotal : ∃ t, engineStep s = .next t := by
    cases hb : s.busy with
    | true =>
      have hrun := hsafe.running hb
      rw [engineStep_decoding hb hrun.opk]
      exact decodeStep_total hrun.chained
    | false => exact ⟨s, engineStep_atRest hb⟩
  obtain ⟨t, ht⟩ := htotal
  have hstatus' : statusInv t.status := by
    obtain hsame | hword := engineStep_status ht
    · rwa [hsame]
    · exact statusInv_statusWords hword
  exact ⟨t, ht, inv_iff.2 ⟨engineStep_canonical ht hcanonical, hstatus', engineStep_safe hsafe ht⟩⟩

end Sys2Proof.Machine
end

section
/-! PROOFS. The decoder over chains refines the decoder over strings (41_lzw_codes.md R142): what an addition does to
the strings of a table, the codes of the decoder over strings by cases, and the simulation of one code. -/

namespace Sys2Proof.Machine

/-! ## The strings after an addition (41_lzw_codes.md R132) -/

/-- An addition adds one entry at NEXT, or changes neither the table nor NEXT nor the width. -/
theorem added_cases {b : Byte} {s t : State} (h : added b s t) :
    (s.prevV = true ∧ s.next.toNat < 4096 ∧ t.next.toNat = s.next.toNat + 1
      ∧ Store.read s.next.toNat t.tab = some ⟨some s.prevCode, b⟩
      ∧ ∀ c, c ≠ s.next.toNat → Store.read c t.tab = Store.read c s.tab)
    ∨ ((s.prevV = false ∨ 4096 ≤ s.next.toNat) ∧ t.tab = s.tab ∧ t.next = s.next ∧ t.codesize = s.codesize) := by
  obtain ⟨hroom, hfull⟩ := h
  by_cases hadd : s.prevV = true ∧ s.next.toNat < 4096
  · obtain ⟨hread, hnext, -, hother⟩ := hroom hadd
    have hsucc : (s.next + 1).toNat = s.next.toNat + 1 := by
      change (s.next.toNat + 1) % 2 ^ 13 = _
      omega
    exact .inl ⟨hadd.1, hadd.2, hnext ▸ hsucc, hread, hother⟩
  · have hnone : s.prevV = false ∨ 4096 ≤ s.next.toNat := by
      rw [← Bool.not_eq_true, ← Nat.not_lt]
      exact not_and_or.1 hadd
    exact .inr ⟨hnone, hfull hnone⟩

section
variable {b : Byte} {s t : State} (hadd : added b s t) (hclear : t.clearcode = s.clearcode)
include hadd hclear

/-- The present codes keep their strings. -/
theorem added_str_old {c : Code} {str : List Byte} (h : s.str c = some str) : t.str c = some str := by
  rw [State.str, hclear]
  obtain ⟨-, -, hnext, -, hother⟩ | ⟨-, htab, hnext, -⟩ := added_cases hadd
  · exact chainString_extend (fun c hc => hother c (Nat.ne_of_lt hc)) (by omega) (Nat.le_refl _) h
  · rw [htab, hnext]
    exact h

/-- The new entry's string is the previous string with b appended. -/
theorem added_str_new {c : Code} {str : List Byte} (hc : c.toNat = s.next.toNat)
    (hlow : s.clearcode.toNat + 2 ≤ s.next.toNat) (hprev : s.prevV = true) (h : s.str s.prevCode = some str) :
    t.str c = some (str ++ [b]) := by
  obtain ⟨-, -, hnext, hread, -⟩ | ⟨hnone, -⟩ := added_cases hadd
  · have hpresent := present_iff.1 (present_of_str h)
    exact str_learned (by rw [hclear]; omega) (by omega) (hc ▸ hread) (added_str_old hadd hclear h) (by omega)
  · have := c.isLt
    simp only [hprev, Bool.true_eq_false, false_or] at hnone
    omega

/-- The codes present after an addition were present before it, but for the one at NEXT. -/
theorem present_before_added {c : Nat} (h : t.present c = true) :
    s.present c = true ∨ (c = s.next.toNat ∧ s.prevV = true ∧ s.next.toNat < 4096) := by
  rw [present_iff, hclear] at h
  rw [present_iff]
  obtain ⟨hprev, hroom, hnext, -⟩ | ⟨-, -, hnext, -⟩ := added_cases hadd
  · simp only [hprev, hroom, and_self, and_true]
    omega
  · rw [hnext] at h
    exact .inl h

/-- An addition keeps every present code's string and gives the new code one (41_lzw_codes.md R131). -/
theorem added_chained (hs : Chained s) (hend : t.endcode = s.endcode)
    (hprev : t.present t.prevCode.toNat = true) : Chained t := by
  refine ⟨hclear ▸ hs.clear, by rw [hend, hclear, hs.endcode], ?_, fun c hc => ?_, fun _ => hprev⟩
  · have := hs.next
    rw [hclear]
    obtain ⟨-, -, hnext, -⟩ | ⟨-, -, hnext, -⟩ := added_cases hadd
    · omega
    · rwa [hnext]
  · obtain hc | ⟨hc, hv, -⟩ := present_before_added hadd hclear hc
    · obtain ⟨str, hstr⟩ := hs.strings c hc
      exact ⟨str, added_str_old hadd hclear hstr⟩
    · obtain ⟨str, hstr⟩ := hs.strings _ (hs.prev hv)
      exact ⟨_, added_str_new hadd hclear hc hs.next hv hstr⟩

end

/-- Settles O19: with a previous string the entry is added first, so the string emitted is the new entry's; without one
the fault record and the STATUS word of cause 1 are written. -/
theorem selfReferenceEffect : Obligations.SelfReferenceEffect := by
  refine ⟨fun c s b rest hc hprev hstr => ?_, fun c s hprev => ?_⟩
  · have hadd := selfReference_added hprev c b (b :: rest)
    have hframe := selfReference_frame c b (b :: rest) s
    exact ⟨_, (ExecNext.selfReference hprev hstr).exec_eq, selfReference_bitpos .., selfReference_stored .., hadd,
      fun hlow => added_str_new hadd hframe.clearcode_eq hc hlow hprev hstr, selfReference_prevV ..,
      selfReference_prevCode .., hframe⟩
  · have hstatus : errorWord 1 = 0x00000204#32 := by decide
    rw [(ExecNext.noPrevious hprev).exec_eq, ← hstatus]
    rfl

/-! ## The decoder over strings -/

/-- D after Add(PREV.CODE, b) (41_lzw_codes.md R142): the previous string with b appended, where there is one and NEXT
is below 4096; `represents_added` ties it to Add. -/
def addedStrings (b : Byte) (d : StringDecoder) : StringDecoder :=
  match d.prev with
  | some p => stringAdd (p ++ [b]) d
  | none => d

theorem addedStrings_some {d : StringDecoder} {p : List Byte} (h : d.prev = some p) (b : Byte) :
    addedStrings b d = stringAdd (p ++ [b]) d := by
  simp [addedStrings, h]

theorem addedStrings_none {d : StringDecoder} (h : d.prev = none) (b : Byte) : addedStrings b d = d := by
  simp [addedStrings, h]

theorem stringAdd_room {d : StringDecoder} (h : d.dict.length + 2 < 4096) (str : List Byte) :
    (stringAdd str d).dict = (d.dict.length + 2, str) :: d.dict := by
  simp [stringAdd, h]

theorem stringAdd_full {d : StringDecoder} (h : ¬ d.dict.length + 2 < 4096) (str : List Byte) :
    stringAdd str d = d := by
  simp [stringAdd, h]

theorem stringCode_clear (clear : Nat) (d : StringDecoder) :
    stringCode clear clear d = some ([], stringInit clear) := by
  simp [stringCode]

/-- A code that D has a string for emits it. -/
theorem stringCode_present {clear c : Nat} {d : StringDecoder} {b : Byte} {rest : List Byte} (hc : c ≠ clear)
    (hread : Store.read c d.dict = some (b :: rest)) :
    stringCode clear c d = some (b :: rest, { addedStrings b d with prev := some (b :: rest) }) := by
  cases hprev : d.prev <;> simp [stringCode, hc, hread, addedStrings, hprev]

/-- The code at NEXT emits the previous string with its first index appended. -/
theorem stringCode_next {clear c : Nat} {d : StringDecoder} {b : Byte} {rest : List Byte} (hc : c ≠ clear)
    (hread : Store.read c d.dict = none) (hprev : d.prev = some (b :: rest)) (hnext : c = d.dict.length + 2) :
    stringCode clear c d
      = some (b :: rest ++ [b], { addedStrings b d with prev := some (b :: rest ++ [b]) }) := by
  rw [hnext] at hc hread
  simp [stringCode, hnext, hc, hread, addedStrings, hprev]

/-- Any other code has no string. -/
theorem stringCode_none {clear c : Nat} {d : StringDecoder} (hc : c ≠ clear) (hread : Store.read c d.dict = none)
    (h : d.prev = none ∨ c ≠ d.dict.length + 2) : stringCode clear c d = none := by
  cases hprev : d.prev with
  | none => simp [stringCode, hc, hread, hprev]
  | some p =>
    have hnext : c ≠ d.dict.length + 2 := h.resolve_left (by simp [hprev])
    simp [stringCode, hc, hread, hprev, hnext]

/-! ## What the arena represents -/

section
variable {s : State} {d : StringDecoder} (h : represents s d)
include h

theorem represents.read_eq (c : Code) : Store.read c.toNat d.dict = s.str c := by
  obtain ⟨hread, -⟩ := h
  exact hread c

theorem represents.next_eq : d.dict.length + 2 = s.next.toNat := by
  obtain ⟨-, hnext, -⟩ := h
  exact hnext

theorem represents.prev_none (hv : s.prevV = false) : d.prev = none := by
  obtain ⟨-, -, hprev⟩ := h
  simpa [hv] using hprev

theorem represents.prev_some (hv : s.prevV = true) : d.prev = s.str s.prevCode := by
  obtain ⟨-, -, hprev⟩ := h
  simpa [hv] using hprev

theorem represents.read_none {c : Code} (hc : ¬ s.present c.toNat = true) : Store.read c.toNat d.dict = none :=
  (h.read_eq c).trans (str_of_not_present hc)

end

theorem read_stringInit (clear k : Nat) :
    Store.read k (stringInit clear).dict = if k < clear then some [BitVec.ofNat 8 k] else none := by
  have hmap : ∀ l : List Nat, Store.read k (l.map fun j => (j, [(BitVec.ofNat 8 j : Byte)]))
      = if k ∈ l then some [BitVec.ofNat 8 k] else none := by
    intro l
    induction l with
    | nil => rfl
    | cons j l ih =>
      by_cases hj : k = j
      · simp [Store.read, hj]
      · simp [Store.read, hj, ih]
  simpa [stringInit] using hmap (List.range clear)

theorem tableReset_prevV (s : State) : (tableReset s).prevV = false := by
  change (0 : BitVec 13).getLsbD 12 = false
  decide

/-- A table reset represents the initial D and no previous string (41_lzw_codes.md R142). -/
theorem tableReset_represents (s : State) : represents (tableReset s) (stringInit s.clearcode.toNat) := by
  refine ⟨fun c => ?_, ?_, by simp [tableReset_prevV, stringInit]⟩
  · rw [read_stringInit, tableReset_str]
    rfl
  · rw [tableReset_next]
    simp [stringInit]

/-- Add(PREV.CODE, b) on the arena represents the addition on D (41_lzw_codes.md R142). -/
theorem represents_added {b : Byte} {s t : State} {d : StringDecoder} (hs : Chained s) (hrep : represents s d)
    (hadd : added b s t) (hclear : t.clearcode = s.clearcode) :
    (∀ c : Code, Store.read c.toNat (addedStrings b d).dict = t.str c)
    ∧ (addedStrings b d).dict.length + 2 = t.next.toNat := by
  obtain ⟨hv, hroom, hnext, -⟩ | ⟨hnone, htab, hnext, -⟩ := added_cases hadd
  · obtain ⟨p, hp⟩ := hs.strings _ (hs.prev hv)
    rw [addedStrings_some ((hrep.prev_some hv).trans hp), stringAdd_room (by rwa [hrep.next_eq]), hrep.next_eq]
    refine ⟨fun c => ?_, by rw [List.length_cons, hnext, ← hrep.next_eq]⟩
    obtain hc | hc := eq_or_ne c.toNat s.next.toNat
    · rw [added_str_new hadd hclear hc hs.next hv hp]
      simp [Store.read, hc]
    · simp only [Store.read, hc, if_false, hrep.read_eq]
      by_cases hpresent : s.present c.toNat = true
      · obtain ⟨str, hstr⟩ := hs.strings c hpresent
        rw [hstr, added_str_old hadd hclear hstr]
      · rw [str_of_not_present hpresent, str_of_not_present fun ht =>
          hpresent ((present_before_added hadd hclear ht).resolve_right fun hnew => hc hnew.1)]
  · have hsame : (addedStrings b d).dict = d.dict := by
      obtain hv | hfull := hnone
      · rw [addedStrings_none (hrep.prev_none hv)]
      · cases hprev : d.prev with
        | none => rw [addedStrings_none hprev]
        | some p => rw [addedStrings_some hprev, stringAdd_full (by rw [hrep.next_eq]; omega)]
    rw [hsame, hnext]
    refine ⟨fun c => ?_, hrep.next_eq⟩
    rw [hrep.read_eq, State.str, State.str, htab, hnext, hclear]

/-! ## The simulation of one code -/

/-- A code that emits a string after the addition of an entry, its own among the strings then. -/
theorem represents_emitted {b : Byte} {s t : State} {d : StringDecoder} {str : List Byte} (hs : Chained s)
    (hrep : represents s d) (hadd : added b s t) (hclear : t.clearcode = s.clearcode) (hv : t.prevV = true)
    (hstr : t.str t.prevCode = some str) : represents t { addedStrings b d with prev := some str } := by
  obtain ⟨hread, hnext⟩ := represents_added hs hrep hadd hclear
  exact ⟨hread, hnext, by rw [if_pos hv, hstr]⟩

/-- What a code that has a string does in both decoders at once. -/
structure Simulates (s : State) (str : List Byte) (d' : StringDecoder) (t : State) : Prop where
  represents : represents t d'
  stored     : stored str s t
  frame      : codeFrame s t
  chained    : Chained t

theorem presentCode_simulates {s : State} {d : StringDecoder} (hs : Chained s) (hrep : represents s d) {c : Code}
    {b : Byte} {rest : List Byte} (hstr : s.str c = some (b :: rest)) :
    Simulates s (b :: rest) { addedStrings b d with prev := some (b :: rest) } (presentCode c b (b :: rest) s) := by
  have hframe := presentCode_frame c b (b :: rest) s
  have hadd := presentCode_added c b (b :: rest) s
  have hstr' : (presentCode c b (b :: rest) s).str (presentCode c b (b :: rest) s).prevCode = some (b :: rest) := by
    rw [presentCode_prevCode]
    exact added_str_old hadd hframe.clearcode_eq hstr
  exact ⟨represents_emitted hs hrep hadd hframe.clearcode_eq (presentCode_prevV ..) hstr', presentCode_stored ..,
    hframe, added_chained hadd hframe.clearcode_eq hs hframe.endcode_eq (present_of_str hstr')⟩

theorem selfReference_simulates {s : State} {d : StringDecoder} (hs : Chained s) (hrep : represents s d) {c : Code}
    {b : Byte} {rest : List Byte} (hc : c.toNat = s.next.toNat) (hprev : s.prevV = true)
    (hstr : s.str s.prevCode = some (b :: rest)) :
    Simulates s (b :: rest ++ [b]) { addedStrings b d with prev := some (b :: rest ++ [b]) }
      (selfReference c b (b :: rest) s) := by
  have hframe := selfReference_frame c b (b :: rest) s
  have hadd := selfReference_added hprev c b (b :: rest)
  have hstr' : (selfReference c b (b :: rest) s).str (selfReference c b (b :: rest) s).prevCode
      = some (b :: rest ++ [b]) := by
    rw [selfReference_prevCode]
    exact added_str_new hadd hframe.clearcode_eq hc hs.next hprev hstr
  exact ⟨represents_emitted hs hrep hadd hframe.clearcode_eq (selfReference_prevV ..) hstr', selfReference_stored ..,
    hframe, added_chained hadd hframe.clearcode_eq hs hframe.endcode_eq (present_of_str hstr')⟩

/-- A table reset gives a chained table: the literals are present, and nothing else (10_state.md R41). -/
theorem tableReset_chained {s : State} (hclear : s.clearcode.toNat ≤ 256)
    (hend : s.endcode.toNat = s.clearcode.toNat + 1) : Chained (tableReset s) := by
  refine ⟨hclear, hend, (tableReset_next s).ge, fun c hc => ⟨[c.setWidth 8], ?_⟩,
    fun hv => absurd ((tableReset_prevV s).symm.trans hv) (by decide)⟩
  obtain hlit | ⟨hlow, hhigh⟩ := present_iff.1 hc
  · exact str_literal hlit
  · rw [tableReset_next] at hhigh
    exact absurd hhigh (Nat.not_lt.2 hlow)

theorem clearCode_simulates {s : State} (hs : Chained s) :
    Simulates s [] (stringInit s.clearcode.toNat) (clearCode s) :=
  ⟨tableReset_represents (advance s), emit_stored [] s, clearCode_frame s,
    tableReset_chained (s := advance s) hs.clear hs.endcode⟩

/-- One code in both decoders (41_lzw_codes.md R142): the same string, or a halt with nothing stored. -/
theorem ValueNext.simulates {s t : State} {c : Code} {d : StringDecoder} (h : ValueNext s c t) (hs : Chained s)
    (hrep : represents s d) :
    (∃ str d', stringCode s.clearcode.toNat c.toNat d = some (str, d') ∧ Simulates s str d' t)
    ∨ (stringCode s.clearcode.toNat c.toNat d = none ∧ t.busy = false ∧ stored [] s t) := by
  have hnext := hs.next
  have hnextEq := hrep.next_eq
  have hend := hs.endcode
  have hread : c.toNat = s.endcode.toNat ∨ s.next.toNat ≤ c.toNat → Store.read c.toNat d.dict = none :=
    fun hc => hrep.read_none fun hpresent => by
      have := present_iff.1 hpresent
      omega
  cases h with
  | present hstr =>
    have hpresent := present_iff.1 (present_of_str hstr)
    exact .inl ⟨_, _, stringCode_present (by omega) ((hrep.read_eq c).trans hstr), presentCode_simulates hs hrep hstr⟩
  | clearCode hc => exact .inl ⟨_, _, by rw [hc, stringCode_clear], clearCode_simulates hs⟩
  | selfReference hc hprev hstr =>
    exact .inl ⟨_, _, stringCode_next (by omega) (hread (.inr hc.ge)) ((hrep.prev_some hprev).trans hstr) (by omega),
      selfReference_simulates hs hrep hc hprev hstr⟩
  | endCode hc =>
    exact .inr ⟨stringCode_none (by omega) (hread (.inl hc)) (.inr (by omega)), haltEnd_busy _, emit_stored [] s⟩
  | noPrevious hc hprev =>
    exact .inr ⟨stringCode_none (by omega) (hread (.inr hc.ge)) (.inl (hrep.prev_none hprev)), raiseFormatError_busy ..,
      emit_stored [] s⟩
  | invalid hc =>
    exact .inr ⟨stringCode_none (by omega) (hread (.inr hc.le)) (.inr (by omega)), raiseFormatError_busy ..,
      emit_stored [] s⟩

/-- The value of a fetched code is the one its instruction encodes to (30_encoding.md R93). -/
theorem decodeCode_of_fetch {s : State} (hs : Chained s) {i : Instr} {c : Code} (hfetch : s.fetch = .ok i)
    (hc : encodeCode s.context i = some c) : i = decodeCode s.context c := by
  obtain ⟨c', rfl⟩ := fetch_decodeCode hfetch
  have hencode := encodeOfDecodeIsIdentity s.context c' hs.ordered
  cases hencode.symm.trans hc
  rfl

/-- A DECODE that runs has a legal MINCS and starts with a table reset (43_host_commands.md R184,
41_lzw_codes.md R125). -/
theorem startDecode_busy {s : State} (h : (startDecode s).busy = true) :
    startDecode s = decodeInit (beginCommand false s) := by
  unfold startDecode at h ⊢
  split
  · rfl
  · next hlegal =>
    rw [if_neg hlegal, raiseFormatError_busy] at h
    cases h

/-- Settles O54: a DECODE starts with a table reset, which represents the initial map; a running decode has a chained
table, on which each code is simulated by its class. -/
theorem arenaRefinesStrings : Obligations.ArenaRefinesStrings := by
  refine ⟨fun s t hb _ h hbusy => ?_, fun s t d i c hinv hb hrep hfetch hc h => ?_⟩
  · obtain ⟨-, rfl⟩ := admitted_next hb h
    rw [startDecode_busy hbusy]
    exact tableReset_represents _
  · obtain ⟨-, -, hsafe⟩ := inv_iff.1 hinv
    have hs := (hsafe.running hb).chained
    obtain ⟨t', ht', hvalue⟩ := exec_decodeCode hs c
    rw [← decodeCode_of_fetch hs hfetch hc, h] at ht'
    cases ht'
    obtain ⟨str, d', hcode, hsim⟩ | ⟨hcode, hhalt⟩ := hvalue.simulates hs hrep
    · refine ⟨fun str' d'' h' => ?_, fun h' => ?_⟩
      · cases hcode.symm.trans h'
        exact ⟨hsim.represents, hsim.stored, hsim.frame.status_eq⟩
      · cases hcode.symm.trans h'
    · exact ⟨fun str' d'' h' => (by cases hcode.symm.trans h'), fun _ => hhalt⟩

end Sys2Proof.Machine
end

section
/-! PROOFS. The round trip through the reference encoder (41_lzw_codes.md R143, 95_test_vectors.md section 4): the
assembler's shadow is the decoder's state, the encoder's dictionary is the decoder's map of strings one addition
ahead, and so each code the encoder puts out decodes to the string it was put out for. -/

namespace Sys2Proof.Machine

/-! ## The codes that go on, and the width they leave -/

/-- A code after which the decode goes on is the clear code, or it adds an entry and leaves a previous string. -/
theorem ValueNext.running_cases {s t : State} {c : Code} (h : ValueNext s c t) (hb : t.busy = true) :
    (c.toNat = s.clearcode.toNat ∧ t = Machine.clearCode s)
    ∨ (t.prevV = true ∧ (∃ b, added b s t)
      ∧ (s.present c.toNat = true ∨ (c.toNat = s.next.toNat ∧ s.prevV = true))) := by
  cases h with
  | present hstr => exact .inr ⟨presentCode_prevV .., ⟨_, presentCode_added ..⟩, .inl (present_of_str hstr)⟩
  | clearCode hc => exact .inl ⟨hc, rfl⟩
  | selfReference hc hprev =>
    exact .inr ⟨selfReference_prevV .., ⟨_, selfReference_added hprev ..⟩, .inr ⟨hc, hprev⟩⟩
  | endCode => exact absurd ((haltEnd_busy _).symm.trans hb) (by decide)
  | noPrevious | invalid => exact absurd ((raiseFormatError_busy ..).symm.trans hb) (by decide)

theorem leastWidth_next_le {m w n : Nat} (h : leastWidth m w n) : n ≤ 4096 := by
  obtain ⟨-, hhigh, hfit, -⟩ := h
  have hpow : 2 ^ w ≤ 2 ^ 12 := Nat.pow_le_pow_right (by decide) hhigh
  omega

/-- A value that is at most NEXT fits the width of NEXT (30_encoding.md R91). -/
theorem leastWidth_fits {m w n v : Nat} (h : leastWidth m w n) (hv : v < 4096) (hle : v ≤ n) : v < 2 ^ w := by
  obtain ⟨-, -, hfit | ⟨-, rfl⟩, -⟩ := h
  · omega
  · exact hv

theorem added_leastWidth {m : Nat} {b : Byte} {s t : State} (h : added b s t)
    (hw : leastWidth m s.codesize.toNat s.next.toNat) : leastWidth m t.codesize.toNat t.next.toNat := by
  cases hprev : s.prevV with
  | true => exact (added_schedule hprev h (leastWidth_next_le hw) hw).2
  | false =>
    obtain ⟨-, hnext, hwidth⟩ := h.2 (.inl hprev)
    rwa [hnext, hwidth]

/-- CODESIZE after a table reset (10_state.md R41). -/
theorem tableReset_codesize {s : State} {m : Nat} (hmincs : s.mincs.toNat = m) (hm : m ≤ 8) :
    (tableReset s).codesize.toNat = m + 1 := by
  change (s.mincs.toNat + 1) % 2 ^ 4 = _
  omega

/-! ## The assembler's shadow (30_encoding.md R99) -/

/-- The registers the assembler follows, as the decoder has them. -/
def shadowOf (s : State) : Shadow := ⟨s.codesize.toNat, s.next.toNat, s.prevV⟩

theorem shadowOf_tableReset {s : State} {m : Nat} (hmincs : s.mincs.toNat = m) (hm : m ≤ 8)
    (hclear : s.clearcode.toNat = 2 ^ m) : shadowOf (tableReset s) = shadowInit m := by
  rw [shadowOf, shadowInit, tableReset_codesize hmincs hm, tableReset_next, tableReset_prevV, hclear]

theorem shadowOf_added {b : Byte} {s t : State} (h : added b s t) (hprev : t.prevV = true) :
    shadowOf t = { (if s.prevV then shadowAdd (shadowOf s) else shadowOf s) with prevV := true } := by
  obtain ⟨hv, hroom, hnext, -⟩ | ⟨hnone, -, hnext, hwidth⟩ := added_cases h
  · obtain ⟨-, -, hwidth, -⟩ := h.1 ⟨hv, hroom⟩
    simp only [shadowOf, shadowAdd, hv, hroom, hprev, hnext, hwidth, grown_codesize_toNat, if_true]
  · have hsame : (if s.prevV then shadowAdd (shadowOf s) else shadowOf s) = shadowOf s := by
      obtain hv | hfull := hnone
      · simp [hv]
      · simp [shadowAdd, shadowOf, Nat.not_lt.2 hfull]
    rw [hsame, shadowOf, shadowOf, hprev, hnext, hwidth]

theorem shadowAfter_clear (m : Nat) (sh : Shadow) : shadowAfter m (2 ^ m) sh = shadowInit m := by
  simp [shadowAfter]

/-- The shadow after a value that emits a string. -/
theorem shadowAfter_emits {m v : Nat} {sh : Shadow}
    (hv : v < 2 ^ m ∨ (2 ^ m + 2 ≤ v ∧ (v < sh.next ∨ (v = sh.next ∧ sh.prevV = true)))) :
    shadowAfter m v sh = { (if sh.prevV then shadowAdd sh else sh) with prevV := true } := by
  unfold shadowAfter
  obtain hlit | ⟨hlow, hhigh⟩ := hv
  · simp only [hlit, if_true]
  · rw [if_neg (by omega), if_neg (by omega), if_neg (by omega)]
    obtain hhigh | ⟨hself, hprev⟩ := hhigh
    · rw [if_pos hhigh]
    · rw [if_neg (by omega), if_pos hself]
      simp only [hprev, if_true, shadowAdd]
      split
      · rfl
      · rw [← hprev]

/-- The shadow follows the decoder as long as it runs. -/
theorem ValueNext.shadow {s t : State} {c : Code} {m : Nat} (h : ValueNext s c t) (hs : Chained s)
    (hmincs : s.mincs.toNat = m) (hm : m ≤ 8) (hclear : s.clearcode.toNat = 2 ^ m) (hb : t.busy = true) :
    shadowOf t = shadowAfter m c.toNat (shadowOf s) := by
  obtain ⟨hc, rfl⟩ | ⟨hprev, ⟨b, hadd⟩, hc⟩ := h.running_cases hb
  · rw [hc, hclear, shadowAfter_clear]
    exact shadowOf_tableReset (s := advance s) hmincs hm hclear
  · have hnext := hs.next
    rw [shadowOf_added hadd hprev, shadowAfter_emits (sh := shadowOf s)]
    · rfl
    · obtain hpresent | ⟨hself, hv⟩ := hc
      · have hpresent := present_iff.1 hpresent
        rw [hclear] at hpresent
        exact hpresent.imp_right fun hlearned => ⟨hlearned.1, .inl hlearned.2⟩
      · exact .inr ⟨by omega, .inr ⟨hself, hv⟩⟩

theorem ValueNext.leastWidth {s t : State} {c : Code} {m : Nat} (h : ValueNext s c t) (hmincs : s.mincs.toNat = m)
    (hm : 2 ≤ m ∧ m ≤ 8) (hclear : s.clearcode.toNat = 2 ^ m) (hb : t.busy = true)
    (hw : leastWidth m s.codesize.toNat s.next.toNat) : leastWidth m t.codesize.toNat t.next.toNat := by
  obtain ⟨-, rfl⟩ | ⟨-, ⟨b, hadd⟩, -⟩ := h.running_cases hb
  · have hnext : (Machine.clearCode s).next.toNat = 2 ^ m + 2 :=
      (tableReset_next (advance s)).trans (congrArg (· + 2) hclear)
    have hwidth : (Machine.clearCode s).codesize.toNat = m + 1 := tableReset_codesize (s := advance s) hmincs hm.2
    rw [hnext, hwidth]
    exact leastWidth_initial hm
  · exact added_leastWidth hadd hw

/-! ## A decode of assembled lines -/

/-- The lines still to be decoded stand in the payload from the cursor on. -/
def atLines (m : Nat) (ls : List Line) (s : State) : Prop :=
  ∃ pre, s.bitpos.toNat = pre.length ∧ s.payload = packBits (pre ++ assembleBits m (shadowOf s) ls)

theorem fetch_atLines {m : Nat} {ls : List Line} {s : State} {c : Code} (h : atLines m (.raw c.toNat :: ls) s)
    (hw : leastWidth m s.codesize.toNat s.next.toNat) (hc : c.toNat ≤ s.next.toNat) :
    s.fetch = .ok (decodeCode s.context c) := by
  obtain ⟨pre, hbitpos, hpayload⟩ := h
  have hholds : s.context.holds c = true := by
    obtain ⟨-, hwidth, -⟩ := id hw
    simp only [CodeContext.holds, Bool.and_eq_true, decide_eq_true_eq]
    exact ⟨hwidth, leastWidth_fits hw c.isLt hc⟩
  rw [State.fetch, hbitpos, hpayload, assembleBits, ← List.append_assoc]
  exact decodeAt_packBits pre _ hholds

theorem atLines_next {m v : Nat} {ls : List Line} {s t : State} (h : atLines m (.raw v :: ls) s)
    (hpayload : t.payload = s.payload) (hbitpos : t.bitpos.toNat = s.bitpos.toNat + s.codesize.toNat)
    (hshadow : shadowOf t = shadowAfter m v (shadowOf s)) : atLines m ls t := by
  obtain ⟨pre, hpre, hbits⟩ := h
  refine ⟨pre ++ codeBits s.codesize.toNat v, ?_, ?_⟩
  · rw [hbitpos, hpre]
    simp [codeBits]
  · rw [hpayload, hbits, hshadow, assembleBits, List.append_assoc]
    rfl

/-- A decode with no host move left that has stored `done` of idx, its table representing d. -/
structure Decoding (m : Nat) (idx done : List Byte) (d : StringDecoder) (s : State) : Prop where
  represents : represents s d
  chained    : Chained s
  width      : leastWidth m s.codesize.toNat s.next.toNat
  busy       : s.busy = true
  opk        : s.opk = false
  script     : s.script = []
  mincs      : s.mincs.toNat = m
  clear      : s.clearcode.toNat = 2 ^ m
  expect     : s.expect.toNat = idx.length
  ocnt       : s.ocnt.toNat = done.length
  output     : ∀ j b, done[j]? = some b → s.cell .obuf j = b

/-- Storing a string that fits appends it to what is stored (41_lzw_codes.md R129, R130). -/
theorem stored_appends {done str : List Byte} {s t : State} (h : stored str s t) (hocnt : s.ocnt.toNat = done.length)
    (hfit : done.length + str.length ≤ s.expect.toNat) (hdone : ∀ j b, done[j]? = some b → s.cell .obuf j = b) :
    t.ocnt.toNat = (done ++ str).length ∧ ∀ j b, (done ++ str)[j]? = some b → t.cell .obuf j = b := by
  obtain ⟨hcount, hnew, hold⟩ := h
  rw [hocnt] at hcount hnew hold
  refine ⟨by rw [List.length_append]; omega, fun j b hj => ?_⟩
  obtain hlt | hge := Nat.lt_or_ge j done.length
  · rw [List.getElem?_append_left hlt] at hj
    rw [hold j (.inl hlt), hdone j b hj]
  · rw [List.getElem?_append_right hge] at hj
    obtain ⟨hlen, -⟩ := List.getElem?_eq_some_iff.1 hj
    have hcell := hnew _ b hj (by omega)
    rwa [Nat.add_sub_of_le hge] at hcell

/-- One code of the lines: it stores the string it has over strings. -/
theorem Decoding.code {m : Nat} {idx done str : List Byte} {d d' : StringDecoder} {s : State} {c : Code}
    {ls : List Line} (h : Decoding m idx done d s) (hm : 2 ≤ m ∧ m ≤ 8) (hlines : atLines m (.raw c.toNat :: ls) s)
    (hc : c.toNat ≤ s.next.toNat) (hcode : stringCode (2 ^ m) c.toNat d = some (str, d'))
    (hmore : done.length < idx.length) (hfit : done.length + str.length ≤ idx.length) :
    ∃ t, step s = .next t ∧ Decoding m idx (done ++ str) d' t ∧ atLines m ls t := by
  obtain ⟨hrep, hs, hw, hb, hopk, hscript, hmincs, hclear, hexpect, hocnt, hout⟩ := h
  have hfetch := fetch_atLines hlines hw hc
  obtain ⟨t, hexec, hvalue⟩ := exec_decodeCode hs c
  have hsim : Simulates s str d' t := by
    obtain ⟨str', d'', hcode', hsim⟩ | ⟨hnone, -⟩ := hvalue.simulates hs hrep
    · cases hcode.symm.trans (hclear ▸ hcode')
      exact hsim
    · cases hcode.symm.trans (hclear ▸ hnone)
  have hstep : step s = .next t := by
    rw [step_decoding (.inl ⟨hscript, rfl⟩) hb hopk, decodeStep_runs (by omega) hfetch, hexec]
  have hnext := codeNext_of_fetch hfetch hexec
  have hkeep := hnext.keepsInput
  have hundisturbed := hnext.undisturbed ⟨hopk, hscript⟩
  have hb' : t.busy = true := (congrArg (·.getLsbD 0) hsim.frame.status_eq).trans hb
  obtain ⟨hocnt', hout'⟩ := stored_appends hsim.stored hocnt (hexpect ▸ hfit) hout
  have hbitpos : t.bitpos.toNat = s.bitpos.toNat + s.codesize.toNat := by
    rw [hnext.bitpos_eq, pastCode_toNat (fetch_ok hfetch).1]
  exact ⟨t, hstep,
    ⟨hsim.represents, hsim.chained, hvalue.leastWidth hmincs hm hclear hb' hw, hb', hundisturbed.opk,
      hundisturbed.script, hkeep.mincs ▸ hmincs, hsim.frame.clearcode_eq ▸ hclear, hkeep.expect ▸ hexpect, hocnt',
      hout'⟩,
    atLines_next hlines hkeep.payload hbitpos (hvalue.shadow hs hmincs hm.2 hclear hb')⟩

/-- The decode that runs from s halts with COUNT and has stored exactly idx. -/
def decodesTo (idx : List Byte) (s : State) : Prop :=
  ∃ k t, runSteps k s = some t ∧ t.status = 0x00000012#32 ∧ t.ocnt.toNat = idx.length
    ∧ ∀ j b, idx[j]? = some b → t.cell .obuf j = b

theorem decodesTo_of_step {idx : List Byte} {s t : State} (hstep : step s = .next t) (h : decodesTo idx t) :
    decodesTo idx s := by
  obtain ⟨k, u, hrun, hu⟩ := h
  exact ⟨k + 1, u, runSteps_succ.2 ⟨t, hstep, hrun⟩, hu⟩

/-- With every index stored the count test halts the decode (41_lzw_codes.md R126). -/
theorem Decoding.complete {m : Nat} {idx : List Byte} {d : StringDecoder} {s : State} (h : Decoding m idx idx d s) :
    decodesTo idx s := by
  have hcount : s.expect.toNat ≤ s.ocnt.toNat := by rw [h.expect, h.ocnt]
  have hstep := countHaltsFirst s s (.inl ⟨h.script, rfl⟩) h.busy h.opk hcount
  exact decodesTo_of_step hstep ⟨0, _, rfl, rfl, h.ocnt, h.output⟩

/-! ## The encoder's loop -/

/-- The encoder's dictionary and next code after a string is learned; `encodeLoop_new` ties it to the encoder. -/
def learn (str : List Byte) (dict : Dictionary) (nxt : Nat) : Dictionary × Nat :=
  if nxt < 4096 then ((str, nxt) :: dict, nxt + 1) else (dict, nxt)

theorem encodeLoop_known {dict : Dictionary} {nxt c : Nat} {w ks : List Byte} {k : Byte}
    (h : codeOf (w ++ [k]) dict = some c) : encodeLoop dict nxt w (k :: ks) = encodeLoop dict nxt (w ++ [k]) ks := by
  cases w <;> simp only [encodeLoop, h]

theorem encodeLoop_new {dict : Dictionary} {nxt : Nat} {w ks : List Byte} {k : Byte}
    (h : codeOf (w ++ [k]) dict = none) : encodeLoop dict nxt w (k :: ks)
      = (codeOf w dict).getD 0
        :: encodeLoop (learn (w ++ [k]) dict nxt).1 (learn (w ++ [k]) dict nxt).2 [k] ks := by
  cases w <;> simp only [encodeLoop, h, learn] <;> split <;> rfl

theorem encodeLoop_last (dict : Dictionary) (nxt : Nat) (b : Byte) (w : List Byte) :
    encodeLoop dict nxt (b :: w) [] = [(codeOf (b :: w) dict).getD 0] := rfl

/-- The encoder's dictionary mirrors the strings d: its codes are below NEXT and have their strings in d, and every
literal has one. -/
structure Mirrors (m : Nat) (dict : Dictionary) (nxt : Nat) (d : StringDecoder) : Prop where
  next     : d.dict.length + 2 = nxt
  bound    : nxt ≤ 4096
  known    : ∀ u c, codeOf u dict = some c → c < nxt ∧ Store.read c d.dict = some u
  literals : ∀ b : Byte, b.toNat < 2 ^ m → ∃ c, codeOf [b] dict = some c

/-- The encoder learns the current string with the coming index appended, which is what the decoder will add once it has
that index: the dictionary is the decoder's map one addition ahead. -/
theorem Mirrors.learn {m nxt : Nat} {dict : Dictionary} {d : StringDecoder} (h : Mirrors m dict nxt d)
    (u : List Byte) (k : Byte) : Mirrors m (learn (u ++ [k]) dict nxt).1 (learn (u ++ [k]) dict nxt).2
      (addedStrings k { d with prev := some u }) := by
  obtain ⟨hnext, hbound, hknown, hliterals⟩ := h
  rw [addedStrings_some rfl]
  by_cases hroom : nxt < 4096
  · simp only [Machine.learn, hroom, if_true]
    have hdict : (stringAdd (u ++ [k]) { d with prev := some u }).dict = (nxt, u ++ [k]) :: d.dict := by
      rw [stringAdd_room (hnext ▸ hroom), hnext]
    refine ⟨by rw [hdict, List.length_cons]; omega, hroom, fun v c hc => ?_, fun b hb => ?_⟩
    · rw [hdict]
      rw [codeOf] at hc
      split at hc
      · next hv =>
        cases hc
        exact ⟨Nat.lt_succ_self _, by simp [Store.read, hv]⟩
      · obtain ⟨hlt, hread⟩ := hknown v c hc
        exact ⟨Nat.lt_succ_of_lt hlt, by rw [Store.read, if_neg (Nat.ne_of_lt hlt), hread]⟩
    · rw [codeOf]
      split
      · exact ⟨_, rfl⟩
      · exact hliterals b hb
  · simp only [Machine.learn, hroom, if_false]
    rw [stringAdd_full (by simpa [hnext] using hroom)]
    exact ⟨hnext, hbound, hknown, hliterals⟩

/-- A string of the map one addition ahead is a string of the map, or the previous string with b appended. -/
theorem read_addedStrings {b : Byte} {d : StringDecoder} {c : Nat} {u : List Byte}
    (h : Store.read c (addedStrings b d).dict = some u) :
    Store.read c d.dict = some u ∨ (c = d.dict.length + 2 ∧ ∃ p, d.prev = some p ∧ u = p ++ [b]) := by
  cases hprev : d.prev with
  | none => exact .inl (by rwa [addedStrings_none hprev] at h)
  | some p =>
    rw [addedStrings_some hprev] at h
    by_cases hroom : d.dict.length + 2 < 4096
    · rw [stringAdd_room hroom, Store.read] at h
      split at h
      · next hself => exact .inr ⟨hself, p, rfl, (Option.some.inj h).symm⟩
      · exact .inl h
    · exact .inl (by rwa [stringAdd_full hroom] at h)

/-- The code of a string of the dictionary emits that string, be it present already or the entry the code itself
adds. -/
theorem Mirrors.stringCode {m nxt c : Nat} {dict : Dictionary} {d : StringDecoder} {s : State} {b : Byte}
    {w : List Byte} (h : Mirrors m dict nxt (addedStrings b d)) (hrep : represents s d) (hs : Chained s)
    (hclear : s.clearcode.toNat = 2 ^ m) (hc : codeOf (b :: w) dict = some c) :
    ∃ v : Code, v.toNat = c ∧ v.toNat ≤ s.next.toNat
      ∧ stringCode (2 ^ m) v.toNat d = some (b :: w, { addedStrings b d with prev := some (b :: w) }) := by
  have hbound := h.bound
  have hlow := hs.next
  have hnext := hrep.next_eq
  obtain ⟨hlt, hread⟩ := h.known _ _ hc
  obtain ⟨v, rfl⟩ : ∃ v : Code, v.toNat = c := ⟨BitVec.ofNat 12 c, Nat.mod_eq_of_lt (by omega)⟩
  refine ⟨v, rfl, ?_⟩
  obtain hread | ⟨hself, p, hprev, hp⟩ := read_addedStrings hread
  · have hpresent := present_iff.1 (present_of_str ((hrep.read_eq v).symm.trans hread))
    exact ⟨by omega, stringCode_present (by omega) hread⟩
  · have hnone : Store.read v.toNat d.dict = none := hrep.read_none fun hpresent => by
      have := present_iff.1 hpresent
      omega
    obtain ⟨b', rest, rfl⟩ : ∃ b' rest, p = b' :: rest := by
      cases hv : s.prevV with
      | true => exact str_cons hs.clear ((hrep.prev_some hv).symm.trans hprev)
      | false => cases hprev.symm.trans (hrep.prev_none hv)
    cases hp
    exact ⟨by omega, stringCode_next (by omega) hnone hprev hself⟩

/-- The decoder's step at the code the encoder puts out for its current string. -/
theorem Decoding.emission {m nxt c : Nat} {idx done w ks : List Byte} {b : Byte} {d : StringDecoder} {s : State}
    {dict : Dictionary} {ls : List Line} (hm : 2 ≤ m ∧ m ≤ 8) (h : Decoding m idx done d s)
    (hmirrors : Mirrors m dict nxt (addedStrings b d)) (hc : codeOf (b :: w) dict = some c)
    (hidx : idx = done ++ (b :: w) ++ ks) (hlines : atLines m (.raw c :: ls) s) :
    ∃ t, step s = .next t ∧ Decoding m idx (done ++ (b :: w)) { addedStrings b d with prev := some (b :: w) } t
      ∧ atLines m ls t := by
  obtain ⟨v, rfl, hle, hcode⟩ := hmirrors.stringCode h.represents h.chained h.clear hc
  have hlen := congrArg List.length hidx
  simp only [List.length_append, List.length_cons] at hlen
  exact h.code hm hlines hle hcode (by omega) (by rw [List.length_cons]; omega)

/-- Decoding what the encoder's loop still puts out stores what it still encodes. -/
theorem Decoding.encodeLoop {m nxt : Nat} {idx done w ks : List Byte} {b : Byte} {d : StringDecoder} {s : State}
    {dict : Dictionary} {tail : List Line} (hm : 2 ≤ m ∧ m ≤ 8) (h : Decoding m idx done d s)
    (hmirrors : Mirrors m dict nxt (addedStrings b d)) (hw : ∃ c, codeOf (b :: w) dict = some c)
    (hks : ∀ k, k ∈ ks → k.toNat < 2 ^ m) (hidx : idx = done ++ (b :: w) ++ ks)
    (hlines : atLines m ((encodeLoop dict nxt (b :: w) ks).map Line.raw ++ tail) s) : decodesTo idx s := by
  induction ks generalizing done b w d s dict nxt with
  | nil =>
    obtain ⟨c, hc⟩ := hw
    rw [encodeLoop_last, hc] at hlines
    obtain ⟨t, hstep, ht, -⟩ := h.emission hm hmirrors hc hidx hlines
    rw [List.append_nil] at hidx
    rw [← hidx] at ht
    exact decodesTo_of_step hstep ht.complete
  | cons k ks ih =>
    obtain ⟨hk, hks⟩ := List.forall_mem_cons.1 hks
    cases hnew : codeOf (b :: w ++ [k]) dict with
    | some c =>
      rw [encodeLoop_known hnew] at hlines
      exact ih h hmirrors ⟨c, hnew⟩ hks (by simpa using hidx) hlines
    | none =>
      obtain ⟨c, hc⟩ := hw
      rw [encodeLoop_new hnew, hc] at hlines
      obtain ⟨t, hstep, ht, hlines'⟩ := h.emission hm hmirrors hc hidx hlines
      have hmirrors' := hmirrors.learn (b :: w) k
      exact decodesTo_of_step hstep (ih ht hmirrors' (hmirrors'.literals k hk) hks (by simpa using hidx) hlines')

/-! ## The round trip -/

theorem mem_of_codeOf {u : List Byte} {c : Nat} {dict : Dictionary} (h : codeOf u dict = some c) : (u, c) ∈ dict := by
  induction dict with
  | nil => cases h
  | cons e dict ih =>
    rw [codeOf] at h
    split at h
    · next hu =>
      cases h
      exact List.mem_cons.2 (.inl (by rw [hu]))
    · exact List.mem_cons_of_mem _ (ih h)

theorem codeOf_of_mem {u : List Byte} {c : Nat} {dict : Dictionary} (h : (u, c) ∈ dict) :
    ∃ c, codeOf u dict = some c := by
  induction dict with
  | nil => cases h
  | cons e dict ih =>
    rw [codeOf]
    split
    · exact ⟨_, rfl⟩
    · next hu =>
      obtain rfl | h := List.mem_cons.1 h
      · exact absurd rfl hu
      · exact ih h

theorem codeOf_literal {m : Nat} {b : Byte} (hb : b.toNat < 2 ^ m) : ∃ c, codeOf [b] (literalDictionary m) = some c :=
  codeOf_of_mem (List.mem_map.2 ⟨b.toNat, List.mem_range.2 hb, by rw [BitVec.ofNat_toNat, BitVec.setWidth_eq]⟩)

/-- Before the first index the dictionary is the initial map of strings. -/
theorem literalDictionary_mirrors {m : Nat} (hm : 2 ≤ m ∧ m ≤ 8) :
    Mirrors m (literalDictionary m) (2 ^ m + 2) (stringInit (2 ^ m)) := by
  have hpow := pow_mincs_bounds hm rfl
  refine ⟨by simp [stringInit], by omega, fun u c hc => ?_, fun b hb => ?_⟩
  · obtain ⟨k, hk, hpair⟩ := List.mem_map.1 (mem_of_codeOf hc)
    cases hpair
    have hlt := List.mem_range.1 hk
    exact ⟨by omega, by rw [read_stringInit, if_pos hlt]⟩
  · exact codeOf_literal hb

/-- A DECODE as it starts: no index is stored, and the table represents the initial map (41_lzw_codes.md R125). -/
theorem decodeInit_decoding {m : Nat} {idx : List Byte} {s : State} (hm : 2 ≤ m ∧ m ≤ 8) (hbusy : s.busy = true)
    (hopk : s.opk = false) (hscript : s.script = []) (hmincs : s.mincs.toNat = m)
    (hexpect : s.expect.toNat = idx.length) :
    Decoding m idx [] (stringInit (2 ^ m)) (decodeInit s) ∧ shadowOf (decodeInit s) = shadowInit m := by
  have hpow := pow_mincs_bounds hm rfl
  have hclear : (decodeRegs s).clearcode.toNat = 2 ^ m := by
    change 2 ^ s.mincs.toNat % 2 ^ 9 = _
    rw [hmincs]
    omega
  have hend : (decodeRegs s).endcode.toNat = (decodeRegs s).clearcode.toNat + 1 := by
    rw [hclear]
    change (2 ^ s.mincs.toNat + 1) % 2 ^ 9 = _
    rw [hmincs]
    omega
  have hwidth : leastWidth m (decodeInit s).codesize.toNat (decodeInit s).next.toNat := by
    rw [decodeInit, tableReset_codesize (s := decodeRegs s) hmincs hm.2, tableReset_next, hclear]
    exact leastWidth_initial hm
  exact ⟨⟨hclear ▸ tableReset_represents (decodeRegs s), tableReset_chained (by omega) hend, hwidth, hbusy, hopk,
    hscript, hmincs, hclear, hexpect, rfl, nofun⟩, shadowOf_tableReset (s := decodeRegs s) hmincs hm.2 hclear⟩

/-- The lines of what the reference encoder makes of a sequence that is not empty: the clear code, the loop with the
first index as its current string, the end code. -/
theorem referencePayload_cons {m : Nat} {b : Byte} (hb : b.toNat < 2 ^ m) (ks : List Byte) :
    referencePayload m (b :: ks) = packBits (assembleBits m (shadowInit m) (.raw (2 ^ m)
      :: ((encodeLoop (literalDictionary m) (2 ^ m + 2) [b] ks).map Line.raw ++ [.raw (2 ^ m + 1)]))) := by
  obtain ⟨c, hc⟩ := codeOf_literal hb
  rw [referencePayload, referenceCodes, encodeLoop_known hc]
  simp [assemble]

/-- Settles O55: after the leading clear code the encoder's dictionary mirrors the decoder's strings, and along its loop
each code it puts out stores the string it was put out for; the count test halts the decode before the end code. -/
theorem referenceEncoderRoundTrip : Obligations.ReferenceEncoderRoundTrip := by
  intro m idx s s' hlow hhigh hidx hb hscript hwritten hmincs hexpect h hpayload
  have hm : 2 ≤ m ∧ m ≤ 8 := ⟨hlow, hhigh⟩
  have hpow := pow_mincs_bounds hm rfl
  have hstarted := execDecode_started hb hwritten (hmincs ▸ hlow) (hmincs ▸ hhigh) h
  have hbusy : (busyWord false).getLsbD 0 = true ∧ (busyWord false).getLsbD 8 = false := by decide
  obtain ⟨hstart, hshadow⟩ : Decoding m idx [] (stringInit (2 ^ m)) s' ∧ shadowOf s' = shadowInit m :=
    hstarted ▸ decodeInit_decoding hm hbusy.1 hbusy.2 hscript hmincs hexpect
  have hbitpos : s'.bitpos = 0 := by
    rw [hstarted]
    rfl
  cases idx with
  | nil => exact hstart.complete
  | cons b ks =>
    obtain ⟨hb, hks⟩ := List.forall_mem_cons.1 hidx
    obtain ⟨v, hv⟩ : ∃ v : Code, v.toNat = 2 ^ m := ⟨BitVec.ofNat 12 (2 ^ m), Nat.mod_eq_of_lt (by omega)⟩
    have hlines : atLines m (.raw v.toNat :: ((encodeLoop (literalDictionary m) (2 ^ m + 2) [b] ks).map Line.raw
        ++ [.raw (2 ^ m + 1)])) s' :=
      ⟨[], by rw [hbitpos]; rfl, by rw [hpayload, hshadow, hv, referencePayload_cons hb]; rfl⟩
    have hle : v.toNat ≤ s'.next.toNat := by
      have hnext := hstart.chained.next
      rw [hstart.clear] at hnext
      omega
    obtain ⟨t, hstep, ht, hlines'⟩ := hstart.code hm hlines hle (by rw [hv, stringCode_clear]) (Nat.succ_pos _)
      (Nat.zero_le _)
    exact decodesTo_of_step hstep
      (ht.encodeLoop hm (literalDictionary_mirrors hm) (codeOf_literal hb) hks rfl hlines')

end Sys2Proof.Machine
end

section
/-! PROOFS. The de-interleaver: the row map and its inverse (42_deinterlace.md R161), what the copy leaves in DBUF
(R163, R165), and the two paths of a DEINT (R162, R163, 43_host_commands.md R185). -/

namespace Sys2Proof.Machine

/-! ## The passes of the row map -/

section
variable {h d k : Nat}

theorem rowMap_pass1 (hk : k < passRows1 h) : rowMap h k = 8 * k := if_pos hk

theorem rowMap_pass2 (hk : k < passRows2 h) : rowMap h (passRows1 h + k) = 8 * k + 4 := by
  rw [rowMap, if_neg (by omega), if_pos (by omega), Nat.add_sub_cancel_left]

theorem rowMap_pass3 (hk : k < passRows3 h) : rowMap h (passRows1 h + passRows2 h + k) = 4 * k + 2 := by
  rw [rowMap, if_neg (by omega), if_neg (by omega), if_pos (by omega), Nat.sub_sub, Nat.add_sub_cancel_left]

theorem rowMap_pass4 : rowMap h (passRows1 h + passRows2 h + passRows3 h + k) = 2 * k + 1 := by
  rw [rowMap, if_neg (by omega), if_neg (by omega), if_neg (by omega), Nat.sub_sub, Nat.sub_sub, ← Nat.add_assoc,
    Nat.add_sub_cancel_left]

theorem srcRow_pass1 (hd : d % 8 = 0) : srcRow h d = d / 8 := if_pos hd

theorem srcRow_pass2 (hd : d % 8 = 4) : srcRow h d = passRows1 h + (d - 4) / 8 := by
  rw [srcRow, if_neg (by omega), if_pos hd]

theorem srcRow_pass3 (hd : d % 4 = 2) : srcRow h d = passRows1 h + passRows2 h + (d - 2) / 4 := by
  rw [srcRow, if_neg (by omega), if_neg (by omega), if_pos hd]

theorem srcRow_pass4 (hd : d % 2 = 1) :
    srcRow h d = passRows1 h + passRows2 h + passRows3 h + (d - 1) / 2 := by
  rw [srcRow, if_neg (by omega), if_neg (by omega), if_neg (by omega)]

/-- Every row is in one of the four passes (42_deinterlace.md R161). -/
theorem row_pass (d : Nat) : d % 8 = 0 ∨ d % 8 = 4 ∨ d % 4 = 2 ∨ d % 2 = 1 := by omega

end

/-! A row of the image has its place within its pass below the number of rows the pass lists. -/

section
variable {h d : Nat} (hlt : d < h)
include hlt

theorem pass1_index_lt (hd : d % 8 = 0) : d / 8 < passRows1 h := by
  unfold passRows1
  omega

theorem pass2_index_lt (hd : d % 8 = 4) : (d - 4) / 8 < passRows2 h := by
  unfold passRows2
  omega

theorem pass3_index_lt (hd : d % 4 = 2) : (d - 2) / 4 < passRows3 h := by
  unfold passRows3
  omega

end

/-- The four counts add up to the height (42_deinterlace.md R161). -/
theorem passRows_sum (h : Nat) : passRows1 h + passRows2 h + passRows3 h + h / 2 = h := by
  unfold passRows1 passRows2 passRows3
  omega

theorem srcRow_lt {h d : Nat} (hd : d < h) : srcRow h d < h := by
  have hsum := passRows_sum h
  obtain hpass | hpass | hpass | hpass := row_pass d
  · have := pass1_index_lt hd hpass
    rw [srcRow_pass1 hpass]
    omega
  · have := pass2_index_lt hd hpass
    rw [srcRow_pass2 hpass]
    omega
  · have := pass3_index_lt hd hpass
    rw [srcRow_pass3 hpass]
    omega
  · rw [srcRow_pass4 hpass]
    omega

theorem rowMap_srcRow {h d : Nat} (hd : d < h) : rowMap h (srcRow h d) = d := by
  obtain hpass | hpass | hpass | hpass := row_pass d
  · rw [srcRow_pass1 hpass, rowMap_pass1 (pass1_index_lt hd hpass)]
    omega
  · rw [srcRow_pass2 hpass, rowMap_pass2 (pass2_index_lt hd hpass)]
    omega
  · rw [srcRow_pass3 hpass, rowMap_pass3 (pass3_index_lt hd hpass)]
    omega
  · rw [srcRow_pass4 hpass, rowMap_pass4]
    omega

theorem srcRow_rowMap (h r : Nat) : srcRow h (rowMap h r) = r := by
  unfold rowMap
  split_ifs
  · rw [srcRow_pass1 (by omega)]
    omega
  · rw [srcRow_pass2 (by omega)]
    omega
  · rw [srcRow_pass3 (by omega)]
    omega
  · rw [srcRow_pass4 (by omega)]
    omega

/-- Settles O31: a row's pass is its residue, and within its pass a row's place is its quotient; the place of a row of
the image is below the number of rows of its pass, so that the next pass comes after it. -/
theorem rowMapIsBijection : Obligations.RowMapIsBijection := by
  intro h
  refine ⟨fun r hr => ⟨rowMap_lt hr, srcRow_rowMap h r⟩, fun d hd => ⟨srcRow_lt hd, rowMap_srcRow hd⟩, passRows_sum h,
    fun d e hd he hlt => ?_, fun d e hlt hd he => ?_, fun d e hd he hlt => ?_, fun d e hlt hd he => ?_,
    fun d e hd he hlt => ?_, fun d e hlt hd he => ?_, fun d e hd he hlt => ?_⟩
  · rw [srcRow_pass1 hd, srcRow_pass1 he]
    omega
  · rw [srcRow_pass1 hd, srcRow_pass2 he]
    exact Nat.lt_add_right _ (pass1_index_lt hlt hd)
  · rw [srcRow_pass2 hd, srcRow_pass2 he]
    omega
  · rw [srcRow_pass2 hd, srcRow_pass3 he]
    exact Nat.lt_add_right _ (Nat.add_lt_add_left (pass2_index_lt hlt hd) _)
  · rw [srcRow_pass3 hd, srcRow_pass3 he]
    omega
  · rw [srcRow_pass3 hd, srcRow_pass4 he]
    exact Nat.lt_add_right _ (Nat.add_lt_add_left (pass3_index_lt hlt hd) _)
  · rw [srcRow_pass4 hd, srcRow_pass4 he]
    omega

/-! ## The cell an index goes to, and the index a cell comes from -/

/-- Which index of the interlaced sequence cell a of the image receives (42_deinterlace.md R164). -/
def deintSource (w h a : Nat) : Nat := srcRow h (a / w) * w + a % w

/-- A cell's row and column. -/
theorem cell_row_column {w x : Nat} (hx : x < w) (r : Nat) : (r * w + x) / w = r ∧ (r * w + x) % w = x :=
  (Nat.div_mod_unique (Nat.zero_lt_of_lt hx)).2 ⟨by rw [Nat.mul_comm, Nat.add_comm], hx⟩

theorem deintCell_row {w x : Nat} (hx : x < w) (h r : Nat) : deintCell w h (r * w + x) = rowMap h r * w + x := by
  obtain ⟨hrow, hcolumn⟩ := cell_row_column hx r
  rw [deintCell, hrow, hcolumn]

theorem deintSource_row {w x : Nat} (hx : x < w) (h d : Nat) : deintSource w h (d * w + x) = srcRow h d * w + x := by
  obtain ⟨hrow, hcolumn⟩ := cell_row_column hx d
  rw [deintSource, hrow, hcolumn]

theorem deintSource_deintCell {w : Nat} (hw : 1 ≤ w) (h i : Nat) : deintSource w h (deintCell w h i) = i := by
  rw [deintCell, deintSource_row (Nat.mod_lt i hw), srcRow_rowMap, Nat.div_add_mod']

/-- A cell of the image lies below WIDTH · HEIGHT. -/
theorem row_cell_lt {w h d x : Nat} (hd : d < h) (hx : x < w) : d * w + x < w * h :=
  calc d * w + x < d * w + w := Nat.add_lt_add_left hx _
    _ = w * (d + 1) := by ring
    _ ≤ w * h := Nat.mul_le_mul_left w hd

/-! ## What the copy leaves in DBUF -/

theorem copiedOutput_succ (s : State) (dest : Nat → Nat) (m : Nat) :
    copiedOutput s dest (m + 1) = Store.write (dest m) (s.cell .obuf m) (copiedOutput s dest m) := by
  simp [copiedOutput, List.range_succ]

/-- A cell that receives no index stays unwritten (42_deinterlace.md R165). -/
theorem read_copiedOutput_unreached {s : State} {dest : Nat → Nat} {m a : Nat} (h : ∀ i, i < m → a ≠ dest i) :
    Store.read a (copiedOutput s dest m) = none :=
  copiedOutput_induct (P := fun mem => Store.read a mem = none) s dest m rfl fun mem i v hi hmem =>
    (Store.read_write_other (h i hi) v mem).trans hmem

/-- Where no two indices go to one cell, each cell reached holds its index (42_deinterlace.md R163). -/
theorem read_copiedOutput {s : State} {dest src : Nat → Nat} {m i : Nat} (hsrc : ∀ i, src (dest i) = i) (hi : i < m) :
    Store.read (dest i) (copiedOutput s dest m) = some (s.cell .obuf i) := by
  induction m with
  | zero => exact absurd hi (Nat.not_lt_zero i)
  | succ m ih =>
    rw [copiedOutput_succ]
    obtain rfl | hne := eq_or_ne i m
    · exact Store.read_write_same ..
    · have hdest : dest i ≠ dest m := fun h => hne ((hsrc i).symm.trans ((congrArg src h).trans (hsrc m)))
      rw [Store.read_write_other hdest, ih (by omega)]

/-! ## The two paths of a DEINT -/

theorem deintWord_noop : deintWord true = 0x00000182#32 := by decide

theorem deintWord_reorders : deintWord false = 0x00000102#32 := by decide

/-- The state after an accepted DEINT: m in DBUF, n in DLEN, and the halt (43_host_commands.md R185). -/
def afterDeint (noop : Bool) (m : Memory) (n : BitVec 32) (s : State) : State :=
  haltDeint noop (setDeint m n (beginCommand true (settleDeint s)))

@[simp] theorem afterDeint_status (noop : Bool) (m : Memory) (n : BitVec 32) (s : State) :
    (afterDeint noop m n s).status = deintWord noop := rfl

@[simp] theorem afterDeint_dbuf (noop : Bool) (m : Memory) (n : BitVec 32) (s : State) :
    (afterDeint noop m n s).dbuf = m := rfl

theorem readRegister_afterDeint_dlen (noop : Bool) (m : Memory) (n : BitVec 32) (s : State) :
    readRegister (afterDeint noop m n s) 9 = n.setWidth 35 :=
  congrArg (·.setWidth 35) (view_of_stillUnspec rfl (List.mem_singleton_self _) n)

/-- A register other than STATUS and DLEN reads as before: it keeps its value, or the free value a read of it gives is
what it holds from then on (70_reset_and_hazards.md R235). -/
theorem readRegister_afterDeint_other {k : Nat} (h1 : k ≠ 1) (h9 : k ≠ 9) (noop : Bool) (m : Memory) (n : BitVec 32)
    (s : State) : readRegister (afterDeint noop m n s) k = readRegister s k := by
  unfold readRegister
  split
  case h_1 => exact absurd rfl h1
  case h_9 => exact absurd rfl h9
  all_goals simp [afterDeint, haltDeint, setDeint, beginCommand, settleDeint, deintOperands, State.view,
    mem_stillUnspec]

theorem afterDeint_frame (noop : Bool) (m : Memory) (n : BitVec 32) (s : State) :
    deintFrame s (afterDeint noop m n s) :=
  ⟨fun _ h1 h9 => readRegister_afterDeint_other h1 h9 noop m n s, fun _ => rfl, fun _ => rfl, rfl, rfl, rfl, rfl⟩

theorem deintNoop_iff (s : State) :
    s.deintNoop = true ↔ s.height.toNat ≤ 1 ∨ s.ocnt.toNat < s.width.toNat ∨ s.width.toNat = 0 := by
  simp [State.deintNoop, or_assoc]

/-- The admission test on each path (43_host_commands.md R183). -/
theorem deintFits_iff (s : State) : s.deintFits = true ↔ s.ocnt.toNat ≤ s.params.obufCap.toNat
    ∧ (if s.deintNoop then s.ocnt.toNat else s.width.toNat * s.height.toNat) ≤ s.params.dbufCap.toNat := by
  unfold State.deintFits
  split <;> simp

/-- With its operands written, a DEINT is admitted and takes its path by the registers as they stand. -/
theorem settleDeint_tests {s : State} (hwritten : s.written deintOperands = true) :
    (settleDeint s).deintFits = s.deintFits ∧ (settleDeint s).deintNoop = s.deintNoop := by
  rw [settleDeint_written hwritten]
  exact ⟨rfl, rfl⟩

theorem exec_deint_accepted {s : State} (hb : s.busy = false) (hwritten : s.written deintOperands = true)
    (hfits : s.deintFits = true) : exec .deint s = .next (startDeint (settleDeint s)) :=
  (ExecNext.deint hb ((settleDeint_tests hwritten).1.trans hfits)).exec_eq

theorem startDeint_noop {s : State} (hwritten : s.written deintOperands = true) (hnoop : s.deintNoop = true) :
    startDeint (settleDeint s) = afterDeint true (copiedOutput s (fun i => i) s.ocnt.toNat) s.ocnt s := by
  have hpath : (beginCommand true (settleDeint s)).deintNoop = true := (settleDeint_tests hwritten).2.trans hnoop
  rw [startDeint, deinterlace, if_pos hpath, afterDeint, settleDeint_written hwritten]
  rfl

theorem startDeint_reorders {s : State} (hwritten : s.written deintOperands = true) (hnoop : ¬ s.deintNoop = true) :
    startDeint (settleDeint s) = afterDeint false
      (copiedOutput s (deintCell s.width.toNat s.height.toNat) (min s.ocnt.toNat (s.width.toNat * s.height.toNat)))
      (BitVec.ofNat 32 (s.width.toNat * s.height.toNat)) s := by
  have hpath : ¬ (beginCommand true (settleDeint s)).deintNoop = true := (settleDeint_tests hwritten).2 ▸ hnoop
  rw [startDeint, deinterlace, if_neg hpath, afterDeint, settleDeint_written hwritten]
  rfl

/-- Settles O28: the copy sends each index to its own cell, so cell i receives index i and no cell from OCNT on receives
any. -/
theorem deintNoopCopies : Obligations.DeintNoopCopies := by
  intro s n w h hb hwritten hcond hobuf hdbuf
  have hnoop : s.deintNoop = true := (deintNoop_iff s).2 hcond
  have hfits : s.deintFits = true := (deintFits_iff s).2 ⟨hobuf, by rwa [if_pos hnoop]⟩
  refine ⟨_, (exec_deint_accepted hb hwritten hfits).trans (congrArg _ (startDeint_noop hwritten hnoop)),
    deintWord_noop, (readRegister_afterDeint_dlen ..).trans (BitVec.ofNat_toNat ..).symm, fun i hi => ?_, fun a ha => ?_,
    afterDeint_frame ..⟩
  · exact read_copiedOutput (src := fun i => i) (fun _ => rfl) hi
  · exact read_copiedOutput_unreached fun i hi => by omega

/-- Settles O29: the row map has an inverse, so an index below WIDTH · HEIGHT keeps its cell, and a cell that receives
an index is one of the image and receives the one it comes from. -/
theorem deintReorders : Obligations.DeintReorders := by
  intro s n w h hb hwritten hheight hocnt hwidth hobuf hdbuf
  have hnoop : ¬ s.deintNoop = true := by
    rw [deintNoop_iff]
    omega
  have hfits : s.deintFits = true := (deintFits_iff s).2 ⟨hobuf, by rwa [if_neg hnoop]⟩
  have hdlen : w * h < 2 ^ 32 := Nat.lt_of_le_of_lt hdbuf s.params.dbufCap.isLt
  refine ⟨_, (exec_deint_accepted hb hwritten hfits).trans (congrArg _ (startDeint_reorders hwritten hnoop)),
    deintWord_reorders, ?_, fun i hi => ?_, fun d x hd hx hout => ?_, fun a ha => ?_, afterDeint_frame ..⟩
  · rw [readRegister_afterDeint_dlen, setWidth_ofNat_eq, Nat.mod_eq_of_lt hdlen]
  · exact read_copiedOutput (dest := deintCell w h) (src := deintSource w h) (deintSource_deintCell hwidth h) hi
  · refine read_copiedOutput_unreached fun i hi hcell => ?_
    have hi' : srcRow h d * w + x = i := by
      rw [← deintSource_row hx, hcell]
      exact deintSource_deintCell hwidth h i
    omega
  · refine read_copiedOutput_unreached fun i hi hcell => ?_
    exact absurd (deintCell_lt (Nat.lt_of_lt_of_le hi (Nat.min_le_right ..))) (Nat.not_lt.2 (hcell ▸ ha))

/-- Settles O30: cell (d, x) is where the reordering sends index (SrcRow(d), x), which a complete image has. -/
theorem deintCompleteImage : Obligations.DeintCompleteImage := by
  intro s n w h hb hwritten hheight hwidth hcomplete hobuf hdbuf
  have hocnt : w ≤ n := hcomplete ▸ Nat.le_mul_of_pos_right w (by omega)
  obtain ⟨t, hexec, -, -, hcells, -⟩ :=
    deintReorders s hb hwritten hheight hocnt hwidth hobuf (hcomplete ▸ hdbuf)
  refine ⟨t, hexec, fun d x hd hx => ?_⟩
  have hsrc : srcRow h d * w + x < min n (w * h) := by
    rw [hcomplete, Nat.min_self]
    exact row_cell_lt (srcRow_lt hd) hx
  have hread := hcells _ hsrc
  obtain ⟨hrow, hcolumn⟩ := cell_row_column hx (srcRow h d)
  rw [hrow, hcolumn, rowMap_srcRow hd] at hread
  rw [cell_eq, State.buf, hread, Option.getD_some]

end Sys2Proof.Machine
end

section
/-! PROOFS. The DECODE command at rest (43_host_commands.md R183, R184): its admission, the registers and the table that
DecodeInit leaves (41_lzw_codes.md R125, 10_state.md R41), and FormatError cause 3 (60_exceptions.md R202). -/

namespace Sys2Proof.Machine

/-! ## Admission -/

theorem decodeFits_iff (s : State) : s.decodeFits = true ↔
    s.ilen.toNat ≤ s.params.ibufCap.toNat ∧ s.expect.toNat ≤ s.params.obufCap.toNat := by
  simp [State.decodeFits]

theorem mincsLegal_iff (s : State) : s.mincsLegal = true ↔ 2 ≤ s.mincs.toNat ∧ s.mincs.toNat ≤ 8 := by
  simp [State.mincsLegal]

/-- A written operand of DECODE is what the register holds. -/
theorem settleDecode_operands {s : State} (hwritten : s.written decodeOperands = true) :
    (settleDecode s).mincs = s.mincs ∧ (settleDecode s).expect = s.expect ∧ (settleDecode s).ilen = s.ilen := by
  rw [settleDecode_written hwritten]
  exact ⟨rfl, rfl, rfl⟩

/-- With its operands written, a DECODE is admitted by the registers as they stand. -/
theorem settleDecode_decodeFits {s : State} (hwritten : s.written decodeOperands = true) :
    (settleDecode s).decodeFits = s.decodeFits := by
  rw [settleDecode_written hwritten]
  rfl

theorem settleDecode_mincsLegal {s : State} (hwritten : s.written decodeOperands = true) :
    (settleDecode s).mincsLegal = s.mincsLegal := by
  rw [settleDecode_written hwritten]
  rfl

theorem exec_decode_accepted {s : State} (hb : s.busy = false) (hwritten : s.written decodeOperands = true)
    (hilen : s.ilen.toNat ≤ s.params.ibufCap.toNat) (hexpect : s.expect.toNat ≤ s.params.obufCap.toNat) :
    exec .decode s = .next (startDecode (settleDecode s)) :=
  (ExecNext.decode hb ((settleDecode_decodeFits hwritten).trans ((decodeFits_iff s).2 ⟨hilen, hexpect⟩))).exec_eq

/-! ## What an accepted command leaves of the registers and the buffers -/

/-- An operand that nothing has written reads as the value the command finds (70_reset_and_hazards.md R235). -/
theorem readRegister_settleDecode (s : State) (n : Nat) : readRegister (settleDecode s) n = readRegister s n := by
  unfold readRegister
  split <;> simp [settleDecode, decodeOperands, State.view, mem_stillUnspec]

theorem readRegister_beginCommand {n : Nat} (h1 : n ≠ 1) (opk : Bool) (s : State) :
    readRegister (beginCommand opk s) n = readRegister s n := by
  unfold readRegister
  split
  case h_1 => exact absurd rfl h1
  all_goals rfl

/-- FormatError writes STATUS, ECODE and EPOS (60_exceptions.md R207). -/
theorem readRegister_raiseFormatError {n : Nat} (h1 : n ≠ 1) (h16 : n ≠ 16) (h17 : n ≠ 17) (cause : BitVec 3)
    (c : Code) (pos : BitVec 35) (s : State) : readRegister (raiseFormatError cause c pos s) n = readRegister s n := by
  unfold readRegister
  split
  case h_1 => exact absurd rfl h1
  case h_16 => exact absurd rfl h16
  case h_17 => exact absurd rfl h17
  all_goals rfl

/-- DecodeInit leaves CONFIG, the operands, WIDTH, HEIGHT and DLEN (41_lzw_codes.md R125). -/
theorem readRegister_decodeInit {n : Nat} (hn : n ∈ [2, 3, 4, 5, 6, 7, 9]) (s : State) :
    readRegister (decodeInit s) n = readRegister s n := by
  simp only [List.mem_cons, List.not_mem_nil, or_false] at hn
  obtain rfl | rfl | rfl | rfl | rfl | rfl | rfl := hn
  · rfl
  all_goals simp [readRegister, decodeInit, tableReset, decodeRegs, decodeWrites, State.view, mem_stillUnspec]

theorem settleDecode_cell (s : State) (sp : Space) (a : Nat) : (settleDecode s).cell sp a = s.cell sp a := by
  cases sp <;> rfl

theorem startDecode_cell (s : State) (sp : Space) (a : Nat) : (startDecode s).cell sp a = s.cell sp a := by
  unfold startDecode
  split <;> cases sp <;> rfl

/-! ## The table that DecodeInit leaves -/

section
variable {s : State} (hmincs : s.mincs.toNat ≤ 8)
include hmincs

/-- CLEARCODE and ENDCODE hold 2^MINCS and one more: 9 bits hold both for a legal MINCS (41_lzw_codes.md R125). -/
theorem decodeInit_bounds : (decodeInit s).clearcode.toNat = 2 ^ s.mincs.toNat
    ∧ (decodeInit s).endcode.toNat = 2 ^ s.mincs.toNat + 1 := by
  have hpow : 2 ^ s.mincs.toNat ≤ 2 ^ 8 := Nat.pow_le_pow_right (by decide) hmincs
  exact ⟨Nat.mod_eq_of_lt (by omega), Nat.mod_eq_of_lt (by omega)⟩

theorem decodeInit_next : (decodeInit s).next.toNat = 2 ^ s.mincs.toNat + 2 :=
  (tableReset_next (decodeRegs s)).trans (congrArg (· + 2) (decodeInit_bounds hmincs).1)

theorem read_decodeInit_tab (k : Nat) : Store.read k (decodeInit s).tab
    = if k < 2 ^ s.mincs.toNat then some ⟨none, BitVec.ofNat 8 k⟩ else Store.read k s.tab :=
  (decodeInit_bounds hmincs).1 ▸ read_withLiterals ..

/-- No learned code is present when a decode starts (10_state.md R41). -/
theorem decodeInit_str {c : Code} (hc : 2 ^ s.mincs.toNat ≤ c.toNat) : (decodeInit s).str c = none :=
  (tableReset_str (decodeRegs s) c).trans (if_neg (Nat.not_lt.2 ((decodeInit_bounds hmincs).1 ▸ hc)))

end

/-! ## The two outcomes of an accepted DECODE -/

theorem busyWord_decode : busyWord false = 0x00000001#32 := by decide

theorem errorWord_badMincs : errorWord 3 = 0x00000604#32 := by decide

/-- Settles O24: with a legal MINCS the command answers DecodeInit of the state with BUSY = 1, which keeps the operands;
the table is reset over them. -/
theorem decodeCommandStarts : Obligations.DecodeCommandStarts := by
  intro s hb hwritten hlow hhigh hilen hexpect
  have hlegal : (settleDecode s).mincsLegal = true :=
    (settleDecode_mincsLegal hwritten).trans ((mincsLegal_iff s).2 ⟨hlow, hhigh⟩)
  have hstart : startDecode (settleDecode s) = decodeInit (beginCommand false (settleDecode s)) := if_pos hlegal
  obtain ⟨hmincs, hexpect', hilen'⟩ := settleDecode_operands hwritten
  have hbound : (beginCommand false (settleDecode s)).mincs.toNat ≤ 8 := hmincs ▸ hhigh
  obtain ⟨hclear, hend⟩ := decodeInit_bounds hbound
  refine ⟨_, (exec_decode_accepted hb hwritten hilen hexpect).trans (congrArg _ hstart), busyWord_decode, rfl, hmincs,
    hexpect', hilen', hclear, hend, tableReset_codesize rfl hbound, decodeInit_next hbound, rfl, rfl, rfl, rfl, rfl,
    fun k hk => (read_decodeInit_tab hbound k).trans (if_pos hk),
    fun k hk => (read_decodeInit_tab hbound k).trans (if_neg (Nat.not_lt.2 hk)), fun c hc => decodeInit_str hbound hc,
    fun n hn => ?_, fun sp a => ?_, rfl, rfl⟩
  · have h1 : n ≠ 1 := by
      rintro rfl
      exact absurd hn (by decide)
    rw [readRegister_decodeInit hn, readRegister_beginCommand h1, readRegister_settleDecode]
  · rw [← hstart, startDecode_cell, settleDecode_cell]

/-- Settles O25: with an illegal MINCS the command answers FormatError cause 3 of the state with BUSY = 1, and nothing
is initialised. -/
theorem decodeCommandBadMincs : Obligations.DecodeCommandBadMincs := by
  intro s hb hwritten hbad hilen hexpect
  have hillegal : ¬ (settleDecode s).mincsLegal = true := by
    rw [settleDecode_mincsLegal hwritten, mincsLegal_iff]
    omega
  have hstart : startDecode (settleDecode s) = raiseFormatError 3 0 0 (beginCommand false (settleDecode s)) :=
    if_neg hillegal
  refine ⟨_, (exec_decode_accepted hb hwritten hilen hexpect).trans (congrArg _ hstart), errorWord_badMincs, rfl, rfl,
    rfl, fun n h1 h16 h17 => ?_, fun sp a => ?_, rfl, rfl, rfl⟩
  · rw [readRegister_raiseFormatError h1 h16 h17, readRegister_beginCommand h1, readRegister_settleDecode]
  · rw [← hstart, startDecode_cell, settleDecode_cell]

end Sys2Proof.Machine
end

section
/-! PROOFS. Commands that do not take effect (43_host_commands.md R183, R187), CLEAR (R186), the engine at rest (R182)
and the busy rule (R181). -/

namespace Sys2Proof.Machine

/-! ## Commands beyond capacity -/

theorem admitted_refused {fits : State → Bool} {accept : State → State} {s settled : State} (hb : s.busy = false)
    (hf : ¬ fits settled = true) : admitted fits accept s settled = .refused .commandBeyondCapacity := by
  simp [admitted, hb, hf]

theorem exec_decode_refused {s : State} (hb : s.busy = false) (hwritten : s.written decodeOperands = true)
    (hfits : ¬ s.decodeFits = true) : exec .decode s = .refused .commandBeyondCapacity :=
  admitted_refused hb (settleDecode_decodeFits hwritten ▸ hfits)

theorem exec_deint_refused {s : State} (hb : s.busy = false) (hwritten : s.written deintOperands = true)
    (hfits : ¬ s.deintFits = true) : exec .deint s = .refused .commandBeyondCapacity :=
  admitted_refused hb ((settleDeint_tests hwritten).1 ▸ hfits)

/-- Settles O27: each excess fails a test of the admission; the path of DEINT decides which of its two counts DBUF must
hold. -/
theorem commandsBeyondCapacityRefused : Obligations.CommandsBeyondCapacityRefused := by
  intro s hb n w h
  refine ⟨fun hwritten hexcess => exec_decode_refused hb hwritten fun hfits => ?_,
    fun hwritten hexcess => exec_deint_refused hb hwritten fun hfits => ?_,
    fun hwritten hnoop hexcess => exec_deint_refused hb hwritten fun hfits => ?_,
    fun hwritten hreorders hexcess => exec_deint_refused hb hwritten fun hfits => ?_⟩
  · have := (decodeFits_iff s).1 hfits
    omega
  · exact absurd ((deintFits_iff s).1 hfits).1 (Nat.not_le.2 hexcess)
  · have hdbuf := ((deintFits_iff s).1 hfits).2
    rw [if_pos ((deintNoop_iff s).2 hnoop)] at hdbuf
    exact absurd hdbuf (Nat.not_le.2 hexcess)
  · have hdbuf := ((deintFits_iff s).1 hfits).2
    rw [if_neg (mt (deintNoop_iff s).1 hreorders)] at hdbuf
    exact absurd hdbuf (Nat.not_le.2 hexcess)

/-- Settles O32: at rest CLEAR leaves the halt. -/
theorem clearCommandEffect : Obligations.ClearCommandEffect := fun _ hb => (ExecNext.clear hb).exec_eq

/-! ## Writes of CTRL without effect -/

/-- A reserved value is no command (43_host_commands.md R187). -/
theorem hostCommand_reserved {v : Nat} (h : ∀ i, decodeCtrl (BitVec.ofNat 32 v) ≠ .ok i) (s : State) :
    hostCommand v s = .next s := by
  unfold hostCommand
  split
  · next i hi => exact absurd hi (h i)
  · rfl

/-- While BUSY = 1 no value written to CTRL has an effect (43_host_commands.md R181, R187). -/
theorem hostCommand_busy {s : State} (hb : s.busy = true) (v : Nat) : hostCommand v s = .next s := by
  unfold hostCommand
  split
  · next i hi => exact (ExecNext.busyCommand (decodeCtrl_isCommand hi) hb).exec_eq
  · rfl

/-- Settles O33: a reserved value is none of the three commands, and a busy engine takes none. -/
theorem mistimedCommandsHaveNoEffect : Obligations.MistimedCommandsHaveNoEffect := by
  refine ⟨fun s v h1 h2 h4 => hostCommand_reserved (fun i hi => ?_) s, fun s v hb => hostCommand_busy hb v⟩
  obtain ⟨hv, -⟩ | ⟨hv, -⟩ | ⟨hv, -⟩ := decodeCtrl_ok_iff.1 hi
  · exact h1 (congrArg BitVec.toNat hv)
  · exact h2 (congrArg BitVec.toNat hv)
  · exact h4 (congrArg BitVec.toNat hv)

/-! ## The engine at rest -/

/-- A poll that finds BUSY = 0 reads STATUS and is over (43_host_commands.md R189). -/
theorem step_poll {s : State} {rest : List HostMove} (hb : s.busy = false) (h : s.script = .poll :: rest) :
    step s = .next (readStatus (setScript rest s)) := by
  simp [step, machineStep, h, hb]

/-- Settles O13: whose turn it is touches the host's script only, so that the engine still finds BUSY = 0. -/
theorem engineAtRestDoesNothing : Obligations.EngineAtRestDoesNothing := by
  refine ⟨fun s u hb hturn => ?_, fun s rest hb h => ?_⟩
  · have hub : u.busy = false := (congrArg (·.getLsbD 0) (engineTurn_status hturn)).trans hb
    rw [step_engineTurn hturn, engineStep_atRest hub]
  · rw [step_poll hb h, readStatus_atRest (s := setScript rest s) hb]
    rfl

/-! ## The busy rule -/

section
variable {s : State} (hb : s.busy = true)
include hb

/-- A read of STATUS that finds BUSY = 1 makes no result readable (20_memory.md R71 b). -/
theorem readStatus_busy : readStatus s = { s with lastRead := some (s.status.setWidth 35) } := by
  simp [readStatus, hb, setSynced, setLastRead, readRegister]

theorem hostAct_writeReg_busy (n v : Nat) : hostAct (.writeReg n v) s = .next s := by
  obtain rfl | hn := eq_or_ne n 0
  · exact hostCommand_busy hb v
  · simp [hostAct, hostWriteReg, hn, hb]

theorem hostWriteBuf_busy (sp : Space) (a v : Nat) : hostWriteBuf sp a v s = .next s := if_pos hb

theorem hostReadReg_busy {n : Nat} (hn : n ≠ 1) : hostReadReg n s = unsyncedDraw (registerWidth n) s := by
  simp [hostReadReg, hn, hb]

theorem hostReadBuf_busy (sp : Space) (a : Nat) : hostReadBuf sp a s = .next (unsyncedDraw 8 s) := if_pos hb

end

/-- Settles O34: a read of STATUS, the two kinds of write, and a draw of the width of what is read. -/
theorem busyRule : Obligations.BusyRule := by
  intro s hb
  refine ⟨congrArg _ (readStatus_busy hb), hostAct_writeReg_busy hb, hostWriteBuf_busy hb, fun n hn => ?_,
    fun sp a => ?_⟩
  · obtain ⟨v, hv, hdraw⟩ := unsyncedDraw_eq (registerWidth n) s
    exact ⟨v, hv, congrArg _ ((hostReadReg_busy hb hn).trans hdraw)⟩
  · obtain ⟨v, hv, hdraw⟩ := unsyncedDraw_eq 8 s
    exact ⟨v, hv, (hostReadBuf_busy hb sp a).trans (congrArg _ hdraw)⟩

end Sys2Proof.Machine
end

section
/-! PROOFS. FormatError (60_exceptions.md): the words it and the halts write (R207, R210), and the only causes that raise
it (R201, R202). -/

namespace Sys2Proof.Machine

/-! ## The words of STATUS -/

/-- Settles O16: each word is its fields, one bit or bit field after the other (10_state.md R23). -/
theorem statusWordsOfHalts : Obligations.StatusWordsOfHalts :=
  ⟨endWord_eq true, endWord_eq false, by decide, truncWord_eq, deintWord_reorders, deintWord_noop, by decide, by decide,
    errorWord_badMincs⟩

/-! ## ERR after what raises no FormatError -/

theorem err_eq_of_status_eq {s t : State} (h : t.status = s.status) : t.err = s.err := congrArg (·.getLsbD 2) h

theorem haltEnd_err (s : State) : (haltEnd s).err = false := by
  change (endWord s.isShort).getLsbD 2 = false
  cases s.isShort <;> decide

theorem haltDeint_err (noop : Bool) (s : State) : (haltDeint noop s).err = false := by
  change (deintWord noop).getLsbD 2 = false
  cases noop <;> decide

theorem deinterlace_err (s : State) : (deinterlace s).err = false := by
  unfold deinterlace
  split <;> exact haltDeint_err ..

theorem startDecode_err_legal {s : State} (h : s.mincsLegal = true) : (startDecode s).err = false := by
  rw [startDecode, if_pos h]
  change (busyWord false).getLsbD 2 = false
  decide

theorem leaveHalt_err (s : State) : (leaveHalt s).err = false := by
  change (0 : BitVec 32).getLsbD 2 = false
  decide

/-! ## What raises FormatError -/

/-- The grounds of FormatError: KWK without a previous string (cause 1), INV (cause 2), DECODE with an illegal MINCS as
the command finds it (cause 3, log entry 5). -/
def raisesFormatError (s : State) (i : Instr) : Prop :=
  (∃ c, i = .kwk c ∧ s.prevV = false) ∨ (∃ c, i = .inv c) ∨ (i = .decode ∧ ¬ (settleDecode s).mincsLegal = true)

/-- An instruction with none of the grounds leaves STATUS alone or writes a word with ERR = 0. -/
theorem ExecNext.raises_or_err {i : Instr} {s t : State} (h : ExecNext s i t) :
    raisesFormatError s i ∨ t.err = s.err ∨ t.err = false := by
  cases h with
  | noPrevious hprev => exact .inl (.inl ⟨_, rfl, hprev⟩)
  | invalid => exact .inl (.inr (.inl ⟨_, rfl⟩))
  | decode =>
    by_cases hlegal : (settleDecode s).mincsLegal = true
    · exact .inr (.inr (startDecode_err_legal hlegal))
    · exact .inl (.inr (.inr ⟨rfl, hlegal⟩))
  | literal | reference => exact .inr (.inl (err_eq_of_status_eq (presentCode_status ..)))
  | selfReference => exact .inr (.inl (err_eq_of_status_eq (selfReference_status ..)))
  | clearCode => exact .inr (.inl (err_eq_of_status_eq (tableReset_status (advance s))))
  | busyCommand => exact .inr (.inl rfl)
  | endCode => exact .inr (.inr (haltEnd_err _))
  | deint => exact .inr (.inr (deinterlace_err _))
  | clear => exact .inr (.inr (leaveHalt_err _))

/-- Settles O50: an instruction that turns ERR to 1 neither leaves it alone nor writes it as 0, so one of the three
grounds holds. -/
theorem onlyThreeCausesRaise : Obligations.OnlyThreeCausesRaise := by
  intro i s t h hclear hset
  obtain (hkwk | hinv | ⟨hi, hillegal⟩) | hkept | hzero := (exec_next h).raises_or_err
  · exact .inl hkwk
  · exact .inr (.inl hinv)
  · rw [mincsLegal_iff] at hillegal
    exact .inr (.inr ⟨hi, by omega⟩)
  · exact absurd (hset.symm.trans (hkept.trans hclear)) (by decide)
  · exact absurd (hset.symm.trans hzero) (by decide)

end Sys2Proof.Machine
end

section
/-! PROOFS. Every running DECODE halts (70_reset_and_hazards.md R244); a command with operand registers that nothing has
written (R235); hardware reset (R230, R231). -/

namespace Sys2Proof.Machine

/-! ## The halts of a running DECODE -/

/-- The halts of a running DECODE (60_exceptions.md R209): END with and without SHORT, COUNT, TRUNC, FormatError of
cause 1 and of cause 2. -/
def decodeHaltWords : List (BitVec 32) := [endWord true, endWord false, countWord, truncWord, errorWord 1, errorWord 2]

theorem decodeHaltWords_eq : decodeHaltWords
    = [0x0000004A#32, 0x0000000A#32, 0x00000012#32, 0x00000062#32, 0x00000204#32, 0x00000404#32] := by
  decide

/-- No halt of a DECODE leaves BUSY set. -/
theorem decodeHaltWords_busy {s : State} (h : s.status ∈ decodeHaltWords) : s.busy = false := by
  have hclear : decodeHaltWords.all (fun w => !w.getLsbD 0) = true := by decide
  exact (Bool.not_eq_true' _).mp (List.all_eq_true.1 hclear _ h)

theorem haltEnd_status_mem_decodeHaltWords (s : State) : (haltEnd s).status ∈ decodeHaltWords := by
  change endWord s.isShort ∈ decodeHaltWords
  cases s.isShort <;> simp [decodeHaltWords]

/-- A code halts the decode or leaves STATUS alone. -/
theorem CodeNext.halts_or_status_eq {s t : State} (h : CodeNext s t) :
    t.status ∈ decodeHaltWords ∨ t.status = s.status := by
  cases h with
  | present => exact .inr (presentCode_status ..)
  | selfReference => exact .inr (selfReference_status ..)
  | clearCode => exact .inr (tableReset_status (advance s))
  | endCode => exact .inl (haltEnd_status_mem_decodeHaltWords _)
  | noPrevious | invalid => exact .inl (by simp [raiseFormatError, decodeHaltWords])

/-! ## A running DECODE uses up its payload -/

/-- A code takes its CODESIZE bits off the payload (40_bit_cursor.md R114, R117). -/
theorem CodeNext.bitsLeft_eq {s t : State} (h : CodeNext s t)
    (hfit : s.bitpos.toNat + s.codesize.toNat ≤ 8 * s.payload.length) :
    t.bitsLeft + s.codesize.toNat = s.bitsLeft := by
  simp only [State.bitsLeft, h.keepsInput.payload, h.bitpos_eq, pastCode_toNat hfit]
  omega

/-- A running DECODE of the invariant with no host move left. -/
structure Unattended (s : State) : Prop where
  inv    : Inv s
  busy   : s.busy = true
  script : s.script = []

theorem Unattended.running {s : State} (h : Unattended s) : Running s := by
  obtain ⟨-, -, hsafe⟩ := inv_iff.1 h.inv
  exact hsafe.running h.busy

/-- A step of a running DECODE halts it, or leaves it running with at least MINCS + 1 bits fewer. -/
theorem Unattended.step_halts_or_continues {s : State} (h : Unattended s) : ∃ t, step s = .next t ∧
    (t.status ∈ decodeHaltWords
      ∨ Unattended t ∧ t.mincs = s.mincs ∧ t.bitsLeft + (s.mincs.toNat + 1) ≤ s.bitsLeft) := by
  have hrun := h.running
  obtain ⟨-, -, -, hwidth, -⟩ := hrun.work
  obtain ⟨t, hstep, hinv⟩ := engineStepIsTotal s h.inv
  refine ⟨t, (step_undisturbed h.script).trans hstep, ?_⟩
  rw [engineStep_decoding h.busy hrun.opk] at hstep
  obtain ⟨-, rfl⟩ | ⟨-, -, rfl⟩ | ⟨-, i, hfetch, hexec⟩ := decodeStep_next hstep
  · exact .inl (by simp [haltCount, decodeHaltWords])
  · exact .inl (by simp [haltTrunc, decodeHaltWords])
  · have hnext := codeNext_of_fetch hfetch hexec
    refine hnext.halts_or_status_eq.imp_right fun hstatus => ?_
    have hbusy : t.busy = true := (congrArg (·.getLsbD 0) hstatus).trans h.busy
    have hscript := (hnext.undisturbed ⟨hrun.opk, h.script⟩).script
    have hbits := hnext.bitsLeft_eq (fetch_ok hfetch).1
    exact ⟨⟨hinv, hbusy, hscript⟩, hnext.keepsInput.mincs, by omega⟩

/-- A running DECODE halts after at most (bits left) div (MINCS + 1) codes, with one halting step. -/
theorem Unattended.halts {s : State} (h : Unattended s) : ∃ k t, k ≤ s.bitsLeft / (s.mincs.toNat + 1) + 1
    ∧ runSteps k s = some t ∧ t.status ∈ decodeHaltWords := by
  induction hn : s.bitsLeft using Nat.strong_induction_on generalizing s with
  | _ n ih =>
    subst hn
    obtain ⟨t, hstep, hhalt | ⟨ht, hmincs, hbits⟩⟩ := h.step_halts_or_continues
    · exact ⟨1, t, Nat.le_add_left .., runSteps_succ.2 ⟨t, hstep, rfl⟩, hhalt⟩
    · obtain ⟨k, u, hk, hrun, hhalt⟩ := ih t.bitsLeft (by omega) ht rfl
      rw [hmincs] at hk
      have hquotient : t.bitsLeft / (s.mincs.toNat + 1) + 1 ≤ s.bitsLeft / (s.mincs.toNat + 1) :=
        (Nat.add_div_right _ (Nat.succ_pos _)).symm.trans_le (Nat.div_le_div_right hbits)
      exact ⟨k + 1, u, by omega, runSteps_succ.2 ⟨t, hstep, hrun⟩, hhalt⟩

/-- Settles O47: by strong induction on the bits left, of which every code that does not halt takes at least
MINCS + 1. -/
theorem everyDecodeHalts : Obligations.EveryDecodeHalts := by
  intro s hinv hb hscript
  obtain ⟨k, t, hk, hrun, hhalt⟩ := Unattended.halts ⟨hinv, hb, hscript⟩
  exact ⟨k, t, hk, hrun, decodeHaltWords_busy hhalt, decodeHaltWords_eq ▸ hhalt⟩

/-! ## Operands that nothing has written (70_reset_and_hazards.md R235) -/

theorem stillUnspec_idem (rs l : List RegName) : stillUnspec rs (stillUnspec rs l) = stillUnspec rs l := by
  simp [stillUnspec]

/-- A register just taken off the unspecified ones is written (10_state.md R45). -/
theorem written_of_stillUnspec {s : State} {rs l : List RegName} (h : s.unspec = stillUnspec rs l) :
    s.written rs = true := by
  rw [written_iff, h]
  exact fun r hr hunspec => ((mem_stillUnspec ..).1 hunspec).2 hr

theorem settleDecode_written_self (s : State) : (settleDecode s).written decodeOperands = true :=
  written_of_stillUnspec rfl

theorem settleDeint_written_self (s : State) : (settleDeint s).written deintOperands = true :=
  written_of_stillUnspec rfl

/-- Operands once settled stay as they are. -/
theorem settleDecode_idem (s : State) : settleDecode (settleDecode s) = settleDecode s := by
  rw [settleDecode_written (settleDecode_written_self s)]
  simp only [settleDecode, stillUnspec_idem]

theorem settleDeint_idem (s : State) : settleDeint (settleDeint s) = settleDeint s := by
  rw [settleDeint_written (settleDeint_written_self s)]
  simp only [settleDeint, stillUnspec_idem]

/-- At rest a command's answer depends on the operands as it finds them alone. -/
theorem admitted_atRest {fits : State → Bool} {accept : State → State} {s t settled : State} (hs : s.busy = false)
    (ht : t.busy = false) : admitted fits accept s settled = admitted fits accept t settled := by
  simp [admitted, hs, ht]

theorem exec_decode_settled {s : State} (hb : s.busy = false) : exec .decode s = exec .decode (settleDecode s) := by
  change admitted _ _ s _ = admitted _ _ (settleDecode s) (settleDecode (settleDecode s))
  rw [settleDecode_idem]
  exact admitted_atRest hb hb

theorem exec_deint_settled {s : State} (hb : s.busy = false) : exec .deint s = exec .deint (settleDeint s) := by
  change admitted _ _ s _ = admitted _ _ (settleDeint s) (settleDeint (settleDeint s))
  rw [settleDeint_idem]
  exact admitted_atRest hb hb

/-- An operand that nothing has written reads as the value DEINT finds. -/
theorem readRegister_settleDeint (s : State) (n : Nat) : readRegister (settleDeint s) n = readRegister s n := by
  unfold readRegister
  split <;> simp [settleDeint, deintOperands, State.view, mem_stillUnspec]

/-- Settles O26: at rest a command looks at the settled operands alone, and to settle them twice is to settle them
once. -/
theorem commandsOnUnwrittenOperandsRun : Obligations.CommandsOnUnwrittenOperandsRun := fun s =>
  ⟨fun hb => ⟨exec_decode_settled hb, exec_deint_settled hb⟩, settleDecode_written_self s, settleDeint_written_self s,
    fun n => ⟨readRegister_settleDecode s n, readRegister_settleDeint s n⟩⟩

/-! ## Hardware reset -/

/-- Settles O40: a reset is accepted with no test of the state, and `hardReset` writes that state out
(70_reset_and_hazards.md R230, R231). -/
theorem hardwareResetAtAnyTime : Obligations.HardwareResetAtAnyTime := fun _ => rfl

end Sys2Proof.Machine
end
